-- ==== Sys2Proof/Word.lean ====
section
/-! DEFINITION. The word types of the DG-416 and the shape of a sparse table. -/

namespace Sys2Proof

/-- One byte: a lane of a beat, a byte of a frame, of memory or of the Live Window. -/
abbrev Byte := BitVec 8

/-- The 32-bit data word of one beat (spec 0.4, "Beat"). -/
abbrev Word := BitVec 32

/-- A 24-bit byte address of the memory bus (spec 0.1). -/
abbrev Addr := BitVec 24

/-- Sparse data by index: the entries that differ from the default of their kind, indices strictly rising. The
operations on it and its canonical form are in Machine/Ops.lean. -/
abbrev Tab (α : Type) := List (Nat × α)

end Sys2Proof
end

