-- ==== Sys2Proof/Config.lean ====
section
/-! DEFINITION. The vocabulary of the part (fixed sets of names), what an image fixes until the next reset, and the
free values. -/

namespace Sys2Proof

/-- The table kinds of Table 1.1; the table id is the place in this list. -/
inductive Table where
  | zone | group | fan | bay | channel | gate | sign
deriving DecidableEq, Repr

/-- The attachment of a loop to the part: end A or end B (spec 0.4). -/
inductive End where
  | a | b
deriving DecidableEq, Repr

/-- Configured Kind of a loop address (Table 8.4, Table 11.2). -/
inductive NodeKind where
  | none | bay | gas | fan | light | sign
deriving DecidableEq, Repr

/-- Node State (Table 8.5). -/
inductive NodeState where
  | absent | joining | ready | waiting | failed | isolated
deriving DecidableEq, Repr

/-- Reach of a node (Table 8.4). -/
inductive Reach where
  | a | b | unreached
deriving DecidableEq, Repr

/-- Loop State (Table 8.6). -/
inductive LoopState where
  | idle | closed | probing | broken | dead
deriving DecidableEq, Repr

/-- Failure Cause of a node (Table 8.4); the codes are those of R128. -/
inductive FailCause where
  | none | timeout | mismatch | unreached
deriving DecidableEq, Repr

/-- The pending marks of a node (Table 9.1). -/
inductive Mark where
  | poll | output | show | join
deriving DecidableEq, Repr

/-- Override State (R90); also the override copies of the other units. -/
inductive Override where
  | normal | active | clearing
deriving DecidableEq, Repr

/-- The units that take messages. -/
inductive UnitId where
  | occupancy | guidance | lighting | air | fan | terminal | ring
deriving DecidableEq, Repr

/-- The senders of messages; a Field Loop Controller sends for its loop. -/
inductive Sender where
  | occupancy | guidance | air | terminal | capture | controller (loop : Nat)
deriving DecidableEq, Repr

/-- Device modes (Table 11.1). -/
inductive Mode where
  | loading | building | run | halted
deriving DecidableEq, Repr

/-- Length of a burst (spec 0.1): 1, 2, 4 or 8 beats. -/
inductive BurstLen where
  | one | two | four | eight
deriving DecidableEq, Repr

/-- One beat of a host burst (R155): `addr` is its byte address, of which the two low bits are not used; `lanes` its byte
enables, bit i for the byte at word address + i; `index` its place in the burst, 0 for the first beat. -/
structure Beat where
  write : Bool
  addr : Addr
  lanes : BitVec 4
  data : Word
  len : BurstLen
  wrap : Bool
  index : Nat
deriving DecidableEq, Repr

/-- The argument lanes of a device command (R174): `none` for a lane 1 to 3 that the beat does not enable. -/
structure CmdArgs where
  arg1 : Option Byte
  arg2 : Option Byte
  arg3 : Option Byte
deriving DecidableEq, Repr

/-- The attention bits of Table 11.4; the bit number is the place in this list. -/
inductive Attn where
  | stage | gasUnknown | nodeFailed | loopBroken | override | fanFault
  | groupShort | ringDone | guardDrop | verdictReject | unguided | halted
deriving DecidableEq, Repr

/-- One entry of the Window Map (Table 11.2). -/
structure WinEntry where
  base : Nat
  len : Nat
  present : Bool
deriving DecidableEq, Repr

/-- One terminal entry of the image (Table 11.2): the candidates as (function code, argument). -/
structure TermCfg where
  cands : List (Nat × Nat)
  activeLow : Bool
  pull : Nat
deriving DecidableEq, Repr

/-- The Section Parameters of the image (bytes 304 to 337 of Table 11.2). -/
structure Params where
  replyTimeout : Nat
  gasPoll : Nat
  bayPoll : Nat
  fanPoll : Nat
  lightPoll : Nat
  signPoll : Nat
  startTimeout : Nat
  stopTimeout : Nat
  startInterval : Nat
  signInterval : Nat
  minLight : Nat
  purgePeriod : Nat
  coMax : Nat
  no2Max : Nat
  thresholds : List Byte
deriving DecidableEq, Repr

/-- What the image puts in force until the next reset (R167): the Window Map (entries 0 to 7), the in-effect counts of
ids 0 to 7, the guarded count, the terminal entries and the Section Parameters. -/
structure Cfg where
  windows : List WinEntry
  counts : List Nat
  guarded : Nat
  terms : List TermCfg
  params : Params
deriving DecidableEq, Repr

/-- Before an image is in force every Section Parameter stands at 0; no unit uses one then. -/
def Params.none : Params :=
  { replyTimeout := 0, gasPoll := 0, bayPoll := 0, fanPoll := 0, lightPoll := 0, signPoll := 0, startTimeout := 0,
    stopTimeout := 0, startInterval := 0, signInterval := 0, minLight := 0, purgePeriod := 0, coMax := 0, no2Max := 0,
    thresholds := [] }

/-- No image in force: no window present, every count 0 (R158, Table 11.3 note). -/
def Cfg.none : Cfg := { windows := [], counts := [], guarded := 0, terms := [], params := Params.none }

/-- FREE VALUE (logs 19 and 20): a byte whose value the spec does not state, one for each value of the counter
`State.free`. It has no body, so nothing can be proved of which byte it is. -/
opaque Config.freeByte : Nat → Byte

end Sys2Proof
end

