-- ==== Sys2Proof/Syntax.lean ====
section
/-! DEFINITION. The commands of the part: one constructor for each row of spec/opcode_table.json, in the table's order. -/

namespace Sys2Proof

/-- The steps of the part. `l` is a loop, `e` one of its ends, `n` a node address, `z` a zone, `g` a gate, `f` a fan,
`ch` a lighting channel, `i` a record index, `t` a terminal. -/
inductive Instr where
  | powerOnReset
  | resetPin
  /-- `store` is the content of the serial configuration store from offset 0. -/
  | configurationRead (store : List Byte)
  | buildWrite
  | buildComplete
  | startTestTimeout (l : Fin 4)
  | clockTick
  | plainBeat (b : Beat)
  | tableWriteBeat (b : Beat)
  | commitReadBackDone
  | ringWriteBeat (b : Beat)
  | hostTableRead (b : Beat)
  | reflectWrite
  | liveSnapshot (b : Beat)
  | liveWrite (b : Beat)
  | attentionPendingWrite (b : Beat)
  | plainOutputWrite (b : Beat)
  | lockGranule (a : CmdArgs)
  | unlockGranule (a : CmdArgs)
  | lockTable (a : CmdArgs)
  | unlockTable (a : CmdArgs)
  | loopReset (a : CmdArgs)
  | nodeIsolate (a : CmdArgs)
  | nodeRestore (a : CmdArgs)
  | fanClear (a : CmdArgs)
  | holdsClear (a : CmdArgs)
  | countersClear (a : CmdArgs)
  | restart (a : CmdArgs)
  | unknownCommand (code : Byte) (a : CmdArgs)
  | fetchAttempt
  | endDispatch (l : Fin 4) (e : End)
  | frameSent (l : Fin 4) (e : End)
  /-- `bytes` are those received on the end after a break, up to the next break or the frame's end. -/
  | frameReceived (l : Fin 4) (e : End) (bytes : List Byte)
  | replyTimeout (l : Fin 4) (e : End)
  | passThroughMiss (l : Fin 4)
  | discoveryEchoTimeout (l : Fin 4)
  | probeDue (l : Fin 4) (n : Nat)
  | probeTimeout (l : Fin 4) (e : End)
  | repairTestDue (l : Fin 4)
  | repairTestSend (l : Fin 4)
  | repairTestTimeout (l : Fin 4)
  | nextPollDue (l : Fin 4) (n : Nat)
  | busyUntilReached (l : Fin 4) (n : Nat)
  | nodeNotice (l : Fin 4) (n : Nat) (old new : NodeState)
  /-- The outcome of the step in hand of ring slot `slot`, on its way from the controller of loop `l`. -/
  | hostRequestCompletion (l : Fin 4) (slot : Nat)
  | bayPollReply (l : Fin 4) (n : Nat) (occupancy fault : BitVec 16) (word : Word)
  | modifyReply (l : Fin 4) (n : Nat) (status : Byte) (word : Word)
  | gasPollReply (l : Fin 4) (n : Nat) (co no2 : Nat) (flags : Byte)
  | fanPollReply (l : Fin 4) (n : Nat) (flags : Byte) (speed : Nat)
  | fanSetCompletion (l : Fin 4) (n : Nat) (status : Byte)
  | lightPollReply (l : Fin 4) (n : Nat) (levels : List Nat)
  | lightSetCompletion (l : Fin 4) (n : Nat) (status : Byte) (levels : List Nat)
  | signPollReply (l : Fin 4) (n : Nat) (flags : Byte)
  | showCompletion (l : Fin 4) (n : Nat) (status : Byte) (content : List Byte)
  | freeLost (z c count : Nat)
  | freeGained (z c count : Nat)
  | occupiedAccepted (z : Nat)
  | faultAsserted (z : Nat)
  | faultWithdrawn (z : Nat)
  | presence (ch : Nat)
  /-- `src` is the Occupancy or the Guidance Unit. -/
  | traffic (src : Sender) (z : Nat)
  | queueRaised (z : Nat)
  | queueWithdrawn (z : Nat)
  | routeCountRaised (ch : Nat)
  | routeCountLowered (ch : Nat)
  | gateFullNotice (g : Nat) (raised : Bool)
  /-- `u` is the unit that takes the notice. -/
  | stageNotice (u : UnitId) (z k : Nat)
  | overrideNotice (u : UnitId) (o : Override)
  | alarmNotice (raised : Bool)
  | entryEvent (g : Nat)
  | exitEvent (g : Nat)
  | gateQueueNotice (g : Nat) (raised : Bool)
  | smokeActive
  | smokeInactive
  /-- Terminal `t` for fan `f`; `level` is `none` when the terminal has ceased to carry the function. -/
  | feedbackNotice (f : Nat) (t : Fin 16) (level : Option Bool)
  /-- `place` counts from 0 at the oldest hold. -/
  | holdExpiry (place : Nat)
  | refreshTimerExpiry (i : Nat)
  | presenceTimerExpiry (ch : Nat)
  | freshnessTimerExpiry (l : Fin 4) (n : Nat)
  | trafficTimerExpiry (z : Nat)
  | holdDownExpiry (z : Nat)
  | purgeTimerExpiry
  | startTimerExpiry (f : Nat)
  | stopTimerExpiry (f : Nat)
  | startIntervalExpiry
  | levelChange (t : Fin 16) (high : Bool)
  | debounceExpiry (t : Fin 16)
  | smokeDebounceExpiry
  | exitQueueExpiry (t : Fin 16)
  /-- The Terminal Block takes the report of a commit of record `i` of table `k`. -/
  | functionEvaluation (k : Table) (i : Nat)
  | bayCommit (i : Nat)
  | channelCommit (i : Nat)
  | fanCommit (i : Nat)
  | groupCommit (i : Nat)
  | zoneCommitAir (i : Nat)
  | zoneCommitGuidance (i : Nat)
  | gateCommit (i : Nat)
  | signCommit (i : Nat)
  | abandonedFrameTimeout (l : Fin 4) (e : End)
deriving DecidableEq, Repr

end Sys2Proof
end

