-- ==== Sys2Proof/WellFormed.lean ====
section
/-! DEFINITION. Which commands are well formed: every operand names something the part can have. -/

namespace Sys2Proof

/-- Number of beats of a burst (spec 0.1). -/
def BurstLen.beats : BurstLen → Nat
  | .one => 1
  | .two => 2
  | .four => 4
  | .eight => 8

/-- A beat is well formed when its place lies in its burst. -/
def Beat.wellFormed (b : Beat) : Bool := decide (b.index < b.len.beats)

/-- Node addresses are 1 to 32 (Chapter 8). -/
def nodeOk (n : Nat) : Bool := decide (1 ≤ n ∧ n ≤ 32)

/-- The command codes of Table 11.5. -/
def knownCode (code : Byte) : Bool := decide (1 ≤ code.toNat ∧ code.toNat ≤ 11)

/-- Every operand in the range the spec gives it: beats in their burst, nodes 1 to 32, zones 0 to 15, classes 0 to 2,
channels 0 to 63, gates 0 to 7, fans 0 to 47, four levels, 16 bytes of a SHOW, at most 21 bytes of a frame. -/
def Instr.wellFormed : Instr → Bool
  | .powerOnReset | .resetPin | .buildWrite | .buildComplete | .clockTick | .commitReadBackDone | .reflectWrite
  | .fetchAttempt | .smokeActive | .smokeInactive | .purgeTimerExpiry | .startIntervalExpiry | .smokeDebounceExpiry => true
  | .configurationRead store => decide (store.length ≤ 16777216)
  | .plainBeat b | .tableWriteBeat b | .ringWriteBeat b | .hostTableRead b | .liveSnapshot b | .liveWrite b
  | .attentionPendingWrite b | .plainOutputWrite b => b.wellFormed
  | .lockGranule _ | .unlockGranule _ | .lockTable _ | .unlockTable _ | .loopReset _ | .nodeIsolate _ | .nodeRestore _
  | .fanClear _ | .holdsClear _ | .countersClear _ | .restart _ => true
  | .unknownCommand code _ => !knownCode code
  | .startTestTimeout _ | .endDispatch _ _ | .frameSent _ _ | .replyTimeout _ _ | .passThroughMiss _
  | .discoveryEchoTimeout _ | .probeTimeout _ _ | .repairTestDue _ | .repairTestSend _ | .repairTestTimeout _
  | .abandonedFrameTimeout _ _ => true
  | .frameReceived _ _ bytes => decide (bytes.length ≤ 21)
  | .probeDue _ n | .nextPollDue _ n | .busyUntilReached _ n | .nodeNotice _ n _ _ | .freshnessTimerExpiry _ n => nodeOk n
  | .hostRequestCompletion _ slot => decide (slot < 64)
  | .bayPollReply _ n _ _ _ | .modifyReply _ n _ _ | .fanSetCompletion _ n _ | .signPollReply _ n _ => nodeOk n
  | .gasPollReply _ n co no2 _ => nodeOk n && decide (co < 65536 ∧ no2 < 65536)
  | .fanPollReply _ n _ speed => nodeOk n && decide (speed < 256)
  | .lightPollReply _ n levels => nodeOk n && decide (levels.length = 4)
  | .lightSetCompletion _ n _ levels => nodeOk n && decide (levels.length = 4)
  | .showCompletion _ n _ content => nodeOk n && decide (content.length = 16)
  | .freeLost z c count | .freeGained z c count => decide (z < 16 ∧ c < 3 ∧ count ≤ 2048)
  | .occupiedAccepted z | .faultAsserted z | .faultWithdrawn z | .queueRaised z | .queueWithdrawn z
  | .trafficTimerExpiry z | .holdDownExpiry z => decide (z < 16)
  | .traffic src z => (src == .occupancy || src == .guidance) && decide (z < 16)
  | .presence ch | .routeCountRaised ch | .routeCountLowered ch | .presenceTimerExpiry ch => decide (ch < 64)
  | .gateFullNotice g _ | .entryEvent g | .exitEvent g | .gateQueueNotice g _ => decide (g < 8)
  | .stageNotice u z k => (u == .guidance || u == .lighting || u == .fan || u == .terminal) && decide (z < 16 ∧ k ≤ 4)
  | .overrideNotice u _ => u == .guidance || u == .lighting || u == .fan || u == .terminal
  | .alarmNotice _ | .levelChange _ _ | .debounceExpiry _ | .exitQueueExpiry _ => true
  | .feedbackNotice f _ _ | .startTimerExpiry f | .stopTimerExpiry f | .fanCommit f => decide (f < 48)
  | .holdExpiry place => decide (place < 64)
  | .refreshTimerExpiry i | .signCommit i => decide (i < 32)
  | .functionEvaluation _ i | .bayCommit i => decide (i < 2048)
  | .channelCommit i => decide (i < 64)
  | .groupCommit i => decide (i < 12)
  | .zoneCommitAir i | .zoneCommitGuidance i => decide (i < 16)
  | .gateCommit i => decide (i < 8)

end Sys2Proof
end

