-- ==== Sys2Proof/Decode.lean ====
section
/-! DEFINITION. Words that spell commands: no row of spec/opcode_table.json gives bits, so no word does. -/

namespace Sys2Proof

/-- The command that a word spells by the bits of spec/opcode_table.json. Every row's list of fields is empty and no row
has fixed bits, so every word is turned away. -/
def decodeTableWord (_nbits _w : Nat) : Option Instr := none

end Sys2Proof
end

