-- ==== Sys2Proof/Machine/State.lean ====
section
/-! DEFINITION. The state of the part as plain data, the reasons a step can stop, and the state after reset. -/

namespace Sys2Proof.Machine

/-! ### Applied records (Chapter 1, Tables 1.2 to 1.8) -/

/-- Host-owned fields of a ZONE record. `heads` are four pairs (Loop, Node). -/
structure ZoneRec where
  co1 : Nat
  co2 : Nat
  co3 : Nat
  coPurge : Nat
  no21 : Nat
  no22 : Nat
  no23 : Nat
  coMargin : Nat
  no2Margin : Nat
  holdDown : Nat
  floor : Nat
  ceiling : Nat
  trafficHold : Nat
  heads : List (Nat × Nat)
  closed : Bool
  enabled : Bool
deriving DecidableEq, Repr

/-- Host-owned fields of a GROUP record. `pattern` is (Fans To Run, Speed) for stages 0 to 4; `action` is 0 STOP, 1 FULL,
2 KEEP. -/
structure GroupRec where
  zoneSet : BitVec 16
  pattern : List (Nat × Nat)
  duty : List Nat
  action : Nat
  enabled : Bool
deriving DecidableEq, Repr

/-- Host-owned fields of a FAN record. -/
structure FanRec where
  loop : Nat
  node : Nat
  terminal : Nat
  isolate : Bool
  enabled : Bool
deriving DecidableEq, Repr

/-- Host-owned fields of a BAY record; `cls` is 0 GENERAL, 1 ACCESSIBLE, 2 CHARGING. -/
structure BayRec where
  loop : Nat
  node : Nat
  input : Nat
  zone : Nat
  cls : Nat
  channel : Nat
  closed : Bool
  enabled : Bool
deriving DecidableEq, Repr

/-- Host-owned fields of a CHANNEL record. -/
structure ChannelRec where
  loop : Nat
  node : Nat
  output : Nat
  zone : Nat
  idle : Nat
  presence : Nat
  route : Nat
  hold : Nat
  enabled : Bool
deriving DecidableEq, Repr

/-- Host-owned fields of a GATE record; `routes` are four channels for each of the six positions. -/
structure GateRec where
  pref : List Nat
  margin : Nat
  zone : Nat
  expiry : Nat
  exitQueue : Nat
  routes : List (List Nat)
  enabled : Bool
deriving DecidableEq, Repr

/-- One line of a SIGN record. -/
structure SignLine where
  mask : BitVec 16
  arrow : Nat
  cls : Nat
deriving DecidableEq, Repr

/-- Host-owned fields of a SIGN record; `mode` is 0 AUTO, 1 MANUAL, 2 BLANK. -/
structure SignRec where
  loop : Nat
  node : Nat
  mode : Nat
  lines : List SignLine
  enabled : Bool
deriving DecidableEq, Repr

/-- Table 1.11, ZONE: the default thresholds come from the image (log 38); before one is in force they are 0. -/
def ZoneRec.init : ZoneRec :=
  { co1 := 0, co2 := 0, co3 := 0, coPurge := 0, no21 := 0, no22 := 0, no23 := 0, coMargin := 0, no2Margin := 0,
    holdDown := 0, floor := 0, ceiling := 0, trafficHold := 0, heads := [(0, 0), (0, 0), (0, 0), (0, 0)],
    closed := false, enabled := false }

/-- Table 1.11, GROUP. -/
def GroupRec.init : GroupRec :=
  { zoneSet := 0, pattern := [(0, 0), (0, 0), (0, 0), (0, 0), (0, 0)], duty := [255, 255, 255, 255, 255, 255, 255, 255],
    action := 0, enabled := false }

/-- Table 1.11, FAN. -/
def FanRec.init : FanRec := { loop := 0, node := 0, terminal := 255, isolate := false, enabled := false }

/-- Table 1.11, BAY. -/
def BayRec.init : BayRec :=
  { loop := 0, node := 0, input := 0, zone := 0, cls := 0, channel := 255, closed := false, enabled := false }

/-- Table 1.11, CHANNEL. -/
def ChannelRec.init : ChannelRec :=
  { loop := 0, node := 0, output := 0, zone := 0, idle := 0, presence := 0, route := 0, hold := 0, enabled := false }

/-- Table 1.11, GATE. -/
def GateRec.init : GateRec :=
  { pref := [255, 255, 255, 255, 255, 255], margin := 0, zone := 0, expiry := 0, exitQueue := 0,
    routes := [[255, 255, 255, 255], [255, 255, 255, 255], [255, 255, 255, 255], [255, 255, 255, 255],
      [255, 255, 255, 255], [255, 255, 255, 255]],
    enabled := false }

/-- A line of the default SIGN record. -/
def SignLine.init : SignLine := { mask := 0, arrow := 0, cls := 0 }

/-- Table 1.11, SIGN. -/
def SignRec.init : SignRec :=
  { loop := 0, node := 0, mode := 0, lines := [SignLine.init, SignLine.init, SignLine.init, SignLine.init], enabled := false }

/-- A record of any table, as a commit hands it over (R21). -/
inductive AnyRec where
  | zone (r : ZoneRec)
  | group (r : GroupRec)
  | fan (r : FanRec)
  | bay (r : BayRec)
  | channel (r : ChannelRec)
  | gate (r : GateRec)
  | sign (r : SignRec)
deriving DecidableEq, Repr

/-- The applied records of Table Capture. -/
structure Applied where
  zone : Tab ZoneRec
  group : Tab GroupRec
  fan : Tab FanRec
  bay : Tab BayRec
  channel : Tab ChannelRec
  gate : Tab GateRec
  sign : Tab SignRec
deriving DecidableEq, Repr

/-! ### Messages between units -/

/-- The outcome of one step of a host request (Table 9.7). -/
inductive StepOutcome where
  /-- A DONE reply with its payload after the status byte. -/
  | done (payload : List Byte)
  /-- Any other outcome: Slot Status and Detail. -/
  | ended (status detail : Nat)
deriving DecidableEq, Repr

/-- What a message says. -/
inductive Body where
  | freeLost (z c count : Nat)
  | freeGained (z c count : Nat)
  | occupiedAccepted (z : Nat)
  | faultAsserted (z : Nat)
  | faultWithdrawn (z : Nat)
  | presence (ch : Nat)
  | traffic (z : Nat)
  | queueRaised (z : Nat)
  | queueWithdrawn (z : Nat)
  | routeRaised (ch : Nat)
  | routeLowered (ch : Nat)
  | gateFull (g : Nat) (raised : Bool)
  | stage (z k : Nat)
  /-- `stages` are the Applied Stages of zones 0 to 15 in the notice of CLEARING to Guidance (R44, R92), else empty. -/
  | override (o : Override) (stages : List Nat)
  | alarm (raised : Bool)
  | entry (g : Nat)
  | exit (g : Nat)
  | gateQueue (g : Nat) (raised : Bool)
  | smoke (active : Bool)
  | feedback (f t : Nat) (level : Option Bool)
  | nodeNotice (n : Nat) (old new : NodeState)
  | bayPoll (n : Nat) (occupancy fault : BitVec 16) (word : Word)
  | modify (n : Nat) (status : Byte) (word : Word)
  | gasPoll (n : Nat) (co no2 : Nat) (flags : Byte)
  | fanPoll (n : Nat) (flags : Byte) (speed : Nat)
  | fanSet (n : Nat) (status : Byte)
  | lightPoll (n : Nat) (levels : List Nat)
  | lightSet (n : Nat) (status : Byte) (levels : List Nat)
  | signPoll (n : Nat) (flags : Byte)
  | showDone (n : Nat) (status : Byte) (content : List Byte)
  /-- The outcome of a step of the entry numbered `id`, from ring slot `slot`. -/
  | hostStep (slot id node : Nat) (outcome : StepOutcome)
  /-- The pair of R21: the applied record replaced and the new one. -/
  | commit (i : Nat) (old new : AnyRec)
deriving DecidableEq, Repr

/-- A message on its way from one block to another; those of one sender and one receiver are taken in the order they were
sent (R30, R40, R42; log 3). -/
structure Msg where
  src : Sender
  dst : UnitId
  body : Body
deriving DecidableEq, Repr

/-! ### The memory path (Chapters 1 and 10) -/

/-- What the Reflect List names (R162): a table record, the ring header or a ring slot. -/
inductive RecName where
  | record (t : Table) (i : Nat)
  | header
  | slot (i : Nat)
deriving DecidableEq, Repr

/-- Marks and Verdict of one record (Sections 1.4 to 1.6). -/
structure RecMarks where
  staged : Bool
  clamped : Bool
  verdict : Nat
deriving DecidableEq, Repr

/-- R22: no marks, Verdict DISABLED. -/
def RecMarks.init : RecMarks := { staged := false, clamped := false, verdict := 1 }

/-- The ownership maps of Table 1.10; an unlisted key has no claimant. -/
structure Maps where
  input : Tab (Option Nat)
  output : Tab (Option Nat)
  fanNode : Tab (Option Nat)
  fanGroup : Tab (Option Nat)
  signNode : Tab (Option Nat)
deriving DecidableEq, Repr

/-- Table Capture: marks by record key, the held low byte of Presence Hold with its CHANNEL index, the applied records and
the ownership maps. -/
structure Capture where
  marks : Tab RecMarks
  held : Option (Nat × Byte)
  applied : Applied
  maps : Maps
deriving DecidableEq, Repr

/-- What a host beat that has been judged does once the Memory Port is granted to it (R155, R157, R159, R164). -/
inductive Access where
  /-- A read of one word, and the record it falls on, if any. -/
  | read (r : Option RecName)
  /-- A write of these (address, byte) pairs, as they came. -/
  | write (bs : List (Nat × Byte))
  /-- The remaining lanes of a RING beat; `producer` says that a lane of Producer is among them. -/
  | ring (bs : List (Nat × Byte)) (producer : Bool)
  /-- The remaining lanes of a TABLE beat on record `i`; `commits` says that its Commit byte is among them. -/
  | table (bs : List (Nat × Byte)) (t : Table) (i : Nat) (commits : Bool)
deriving DecidableEq, Repr

/-- A host beat that stands on the hold line: it has been judged and waits for the port alone (R159, R165). -/
structure Standing where
  beat : Beat
  access : Access
deriving DecidableEq, Repr

/-- The Host-side Port and the Memory Port Arbiter (R155, R161, R165). -/
structure Port where
  /-- The record whose committing beat is held for its read-back. -/
  commit : Option (Table × Nat)
  /-- The burst in progress holds a host grant. -/
  grant : Bool
  /-- The rest of the burst in progress goes to memory as single beats. -/
  single : Bool
  counter : Nat
  /-- The beat that could not be granted and stands on the hold line (log 10). -/
  wait : Option Standing
  readData : Word
deriving DecidableEq, Repr

/-- The Guard Map (R158). -/
structure Guard where
  locks : BitVec 256
  hardZone : Bool
  hardGroup : Bool
  hardFan : Bool
deriving DecidableEq, Repr

/-- The Reflect Engine (R162, R163): the list, and the record being written with its remaining bursts as (offset, byte). -/
structure Reflect where
  list : List RecName
  current : Option (RecName × List (List (Nat × Byte)))
deriving DecidableEq, Repr

/-- The Live Window's own registers (Chapter 11) and the counters of R166. -/
structure Live where
  pendingAtt : BitVec 16
  enableAtt : BitVec 16
  cmdWord : Word
  result : Byte
  resultCmd : Byte
  plainOut : BitVec 16
  /-- Block number and content taken by the burst in progress. -/
  snapshot : Option (Nat × List Byte)
  dropped : BitVec 32
  laneDrops : BitVec 32
  clamps : BitVec 32
  lastDropped : Addr
deriving DecidableEq, Repr

/-- Where BUILD stands (R172): stage 0 to 6 a table, 7 the ring header, 8 the slots, 9 all written; record index; word of
the record. -/
structure Build where
  stage : Nat
  index : Nat
  word : Nat
deriving DecidableEq, Repr

/-! ### The request ring (Chapter 9) -/

/-- Part-owned fields of a slot (Table 9.5). -/
structure Slot where
  status : Nat
  detail : Nat
  replyLen : Nat
  notDone : Nat
  lastNode : Nat
  reply : List Byte
deriving DecidableEq, Repr

/-- R147: Slot Status EMPTY and every other field 0. -/
def Slot.init : Slot := { status := 0, detail := 0, replyLen := 0, notDone := 0, lastNode := 0, reply := [] }

/-- A Host Queue entry (R150, R153). `id` numbers the entries in the order in which they were taken, so that two entries of
one slot, which the host has reused before its completion (R148), stay apart (log 46). `inHand` says that its current step
has been handed to an end and its outcome not yet taken (log 28). -/
structure Entry where
  id : Nat
  slot : Nat
  kind : Nat
  first : Nat
  force : Bool
  count : Nat
  payload : List Byte
  cur : Nat
  steps : Nat
  lastDone : Nat
  lastReply : List Byte
  inHand : Bool
deriving DecidableEq, Repr

/-- Where a fetch attempt stands between two of its part bursts (R147, R148, R165). -/
inductive Fetching where
  /-- No fetch is in progress. -/
  | idle
  /-- Producer has been read; the first burst of the slot at the fetch index is next. -/
  | slot (producer : BitVec 16)
  /-- The first burst has given these bytes of the slot; its second burst is next. -/
  | rest (producer : BitVec 16) (head : List Byte)
deriving DecidableEq, Repr

/-- The Request Ring Unit; `taken` counts the entries taken into Host Queues since the reset (log 46). -/
structure Ring where
  fetch : BitVec 16
  completed : BitVec 16
  overrun : Bool
  index : Nat
  taken : Nat
  blocked : Option Nat
  fetching : Fetching
  causeProducer : Bool
  causeDeparture : Bool
  slots : Tab Slot
  queues : Tab (List Entry)
deriving DecidableEq, Repr

/-! ### Field loops (Chapter 8) -/

/-- Where a request comes from: a pending mark, or the Host Queue entry numbered `id` of a ring slot. -/
inductive Source where
  | mark (m : Mark)
  | host (slot id : Nat)
deriving DecidableEq, Repr

/-- An Outstanding Request (Table 8.4): its kind code (Table 8.2), frame, source and scheduling class. -/
structure Request where
  kind : Nat
  frame : List Byte
  source : Source
  cls : Nat
deriving DecidableEq, Repr

/-- A Node Table entry (Table 8.4). `pollTaken` and `probeTaken` say that the due time has been acted on (log 25). -/
structure Node where
  kind : NodeKind
  state : NodeState
  reach : Reach
  seq : Nat
  retry : Nat
  out : Option Request
  cause : FailCause
  probeDue : Nat
  busy : Option Nat
  pollDue : Nat
  pollTaken : Bool
  probeTaken : Bool
deriving DecidableEq, Repr

/-- R128, R144. -/
def Node.init : Node :=
  { kind := .none, state := .absent, reach := .a, seq := 0, retry := 0, out := none, cause := .none, probeDue := 0,
    busy := none, pollDue := 0, pollTaken := false, probeTaken := false }

/-- What a frame in flight is for. -/
inductive Work where
  | startTest
  | repairTest
  | discovery (n : Nat)
  | request (n : Nat)
  /-- Abandoned by LOOP_RESET or NODE_ISOLATE: its end is held until its reply timeout has run out. -/
  | abandoned
deriving DecidableEq, Repr

/-- A frame in flight on an end. `timer` is none until the last byte has left, then the expiry in ms; `reply` says that
its reply outcome is open, `pass` that its pass-through outcome is open (R135). -/
structure Flight where
  frame : List Byte
  work : Work
  timer : Option Nat
  reply : Bool
  pass : Bool
deriving DecidableEq, Repr

/-- Split discovery (R137, R141): the next address to take in order, the address in hand, addresses restored behind it,
and whether any node has answered. -/
structure Disc where
  next : Nat
  current : Option Nat
  behind : List Nat
  answered : Bool
deriving DecidableEq, Repr

/-- One Field Loop Controller with its Loop Scheduler. -/
structure Loop where
  state : LoopState
  nodes : Tab Node
  order : List (Nat × Mark)
  endA : Option Flight
  endB : Option Flight
  both : Bool
  lastA : List Byte
  missRun : Nat
  repair : Option Nat
  repairDue : Bool
  disc : Option Disc
  framesSent : BitVec 32
  timeouts : BitVec 32
  checkErrors : BitVec 32
  stale : BitVec 32
  misses : BitVec 32
deriving DecidableEq, Repr

/-- R128, R142, R143. -/
def Loop.init : Loop :=
  { state := .idle, nodes := [], order := [], endA := none, endB := none, both := false, lastA := [], missRun := 0,
    repair := none, repairDue := false, disc := none, framesSent := 0, timeouts := 0, checkErrors := 0, stale := 0,
    misses := 0 }

/-! ### The Occupancy Unit (Chapter 2) -/

/-- Bay State (Table 1.5). -/
inductive BayState where
  | disabled | closed | unknown | free | occupied
deriving DecidableEq, Repr

/-- A reported sensor value. -/
inductive Sensed where
  | free | occupied
deriving DecidableEq, Repr

/-- State of one bay (Table 2.1) with its record in force. -/
structure BayU where
  inForce : BayRec
  state : BayState
  pend : Option Sensed
  agree : Nat
  lastChange : BitVec 32
  arrivals : BitVec 16
deriving DecidableEq, Repr

/-- R23. -/
def BayU.init : BayU :=
  { inForce := BayRec.init, state := .disabled, pend := none, agree := 0, lastChange := 0, arrivals := 0 }

/-- Counts of one zone: F for the three classes, U, E and the Fault Condition (R32, R33). -/
structure OccZone where
  general : Nat
  accessible : Nat
  charging : Nat
  unknown : Nat
  enabled : Nat
  fault : Bool
deriving DecidableEq, Repr

/-- R23. -/
def OccZone.init : OccZone := { general := 0, accessible := 0, charging := 0, unknown := 0, enabled := 0, fault := false }

/-- State of one BAY node (Table 2.1). -/
structure OccNode where
  usable : Bool
  reported : Option Word
deriving DecidableEq, Repr

/-- R23. -/
def OccNode.init : OccNode := { usable := false, reported := none }

/-- The Occupancy Unit; nodes by node key. `inputs` is the Input Map as the commits that the unit has taken leave it, by input
key (Section 2.1, R40, log 4). -/
structure Occ where
  inputs : Tab (Option Nat)
  bays : Tab BayU
  zones : Tab OccZone
  nodes : Tab OccNode
deriving DecidableEq, Repr

/-! ### The Guidance Unit (Chapter 3) -/

/-- Closure Reasons (Table 3.3). -/
structure Reasons where
  host : Bool
  air : Bool
  override : Bool
  fault : Bool
  disabled : Bool
deriving DecidableEq, Repr

/-- Guidance State (Table 1.2). -/
inductive GState where
  | opened | full | closed
deriving DecidableEq, Repr

/-- Guidance's state of one zone: its copies of the free counts, H, the reasons and the Guidance State. -/
structure GZone where
  inForce : ZoneRec
  general : Nat
  accessible : Nat
  charging : Nat
  holds : Nat
  reasons : Reasons
  gstate : GState
deriving DecidableEq, Repr

/-- R41. -/
def GZone.init : GZone :=
  { inForce := ZoneRec.init, general := 0, accessible := 0, charging := 0, holds := 0,
    reasons := { host := false, air := false, override := false, fault := false, disabled := true }, gstate := .closed }

/-- A hold (Table 3.2). Created is the Section Time; Expiry is a count of seconds (log 7). -/
structure Hold where
  id : Byte
  gate : Nat
  zone : Nat
  position : Nat
  route : List Nat
  created : BitVec 32
  expiry : Nat
deriving DecidableEq, Repr

/-- Guidance's state of one gate. -/
structure GGate where
  inForce : GateRec
  full : Bool
  queue : Bool
  entries : BitVec 16
  unguided : BitVec 16
  exits : BitVec 16
  lastTarget : Nat
deriving DecidableEq, Repr

/-- R41. -/
def GGate.init : GGate :=
  { inForce := GateRec.init, full := false, queue := false, entries := 0, unguided := 0, exits := 0, lastTarget := 255 }

/-- One line as shown on a sign (Table 1.8). -/
structure Shown where
  value : Nat
  arrow : Nat
  text : Nat
deriving DecidableEq, Repr

/-- A line that is BLANK. -/
def Shown.blank : Shown := { value := 0, arrow := 0, text := 3 }

/-- Sign Status (Table 1.8). -/
inductive SignStatus where
  | ok | pending | failed
deriving DecidableEq, Repr

/-- Guidance's state of one sign. -/
structure GSign where
  inForce : SignRec
  shown : List Shown
  valid : Bool
  status : SignStatus
  lastShow : BitVec 32
  refresh : Option Nat
deriving DecidableEq, Repr

/-- R41. -/
def GSign.init : GSign :=
  { inForce := SignRec.init, shown := [Shown.blank, Shown.blank, Shown.blank, Shown.blank], valid := false, status := .ok,
    lastShow := 0, refresh := none }

/-- Guidance's state of one SIGN node. -/
structure GNode where
  usable : Bool
  fault : Bool
deriving DecidableEq, Repr

/-- R41. -/
def GNode.init : GNode := { usable := false, fault := false }

/-- The Guidance Unit. -/
structure Guid where
  zones : Tab GZone
  holds : List Hold
  nextId : Byte
  gates : Tab GGate
  signs : Tab GSign
  nodes : Tab GNode
deriving DecidableEq, Repr

/-! ### The Lighting Unit (Chapter 4) -/

/-- Channel Status (Table 1.6). -/
inductive ChanStatus where
  | unassigned | ok | unknown
deriving DecidableEq, Repr

/-- Lighting's state of one channel. -/
structure LChan where
  inForce : ChannelRec
  level : Nat
  status : ChanStatus
  routes : Nat
  timer : Option Nat
deriving DecidableEq, Repr

/-- R64. -/
def LChan.init : LChan := { inForce := ChannelRec.init, level := 0, status := .unassigned, routes := 0, timer := none }

/-- Lighting's state of one LIGHT node. -/
structure LNode where
  usable : Bool
  lastSet : Option (List Nat)
deriving DecidableEq, Repr

/-- R64. -/
def LNode.init : LNode := { usable := false, lastSet := none }

/-- The Lighting Unit. -/
structure Light where
  chans : Tab LChan
  stages : Tab Nat
  override : Override
  nodes : Tab LNode
deriving DecidableEq, Repr

/-! ### The Air Unit (Chapter 5) -/

/-- A head (Table 5.1); `ring` holds (CO, NO2), oldest first. -/
structure Head where
  ring : List (Nat × Nat)
  fault : Bool
  zeroing : Bool
  zeroFailed : Bool
  fresh : Option Nat
  usable : Bool
deriving DecidableEq, Repr

/-- R77. -/
def Head.init : Head :=
  { ring := [], fault := false, zeroing := false, zeroFailed := false, fresh := none, usable := false }

/-- Air's state of one zone (Table 5.1); the heads in effect are those of `inForce`. -/
structure AZone where
  inForce : ZoneRec
  coLevel : Nat
  no2Level : Nat
  purge : Bool
  co : Nat
  no2 : Nat
  gasUnknown : Bool
  noHeads : Bool
  gasDemand : Nat
  failDemand : Nat
  trafficTimer : Option Nat
  queue : Nat
  trafficDemand : Nat
  demand : Nat
  stage : Nat
  since : BitVec 32
  holdDown : Option Nat
deriving DecidableEq, Repr

/-- R77. -/
def AZone.init : AZone :=
  { inForce := ZoneRec.init, coLevel := 0, no2Level := 0, purge := false, co := 0, no2 := 0, gasUnknown := false,
    noHeads := false, gasDemand := 0, failDemand := 0, trafficTimer := none, queue := 0, trafficDemand := 0, demand := 0,
    stage := 0, since := 0, holdDown := none }

/-- The Air Unit. -/
structure Air where
  heads : Tab Head
  zones : Tab AZone
  smoke : Bool
  override : Override
  purgeTimer : Option Nat
  alarm : Bool
deriving DecidableEq, Repr

/-! ### The Fan Unit (Chapter 6) -/

/-- Fan State (Table 1.4). -/
inductive FanState where
  | stopped | queued | starting | running | stopping | fault | isolated
deriving DecidableEq, Repr

/-- Last Fault Cause (Table 1.4). -/
inductive FanCause where
  | none | startTimeout | stopTimeout | driveFault | nodeFailed | runLost
deriving DecidableEq, Repr

/-- Feedback (Table 6.1). -/
inductive Feedback where
  | unknown | running | stopped
deriving DecidableEq, Repr

/-- State of one fan (Table 6.1). `termFb` is the Terminal Feedback with the terminal that reports it (R122). -/
structure FanU where
  inForce : FanRec
  state : FanState
  command : Nat
  reported : Nat
  runSeconds : BitVec 32
  starts : BitVec 16
  cause : FanCause
  wanted : Bool
  feedback : Feedback
  notRunning : Nat
  startTimer : Option Nat
  stopTimer : Option Nat
  termFb : Option (Nat × Bool)
deriving DecidableEq, Repr

/-- R98. -/
def FanU.init : FanU :=
  { inForce := FanRec.init, state := .stopped, command := 0, reported := 0, runSeconds := 0, starts := 0, cause := .none,
    wanted := false, feedback := .unknown, notRunning := 0, startTimer := none, stopTimer := none, termFb := none }

/-- State of one group (Table 6.1). -/
structure GroupU where
  inForce : GroupRec
  stage : Nat
  running : Nat
  lead : Nat
  short : Bool
deriving DecidableEq, Repr

/-- R98. -/
def GroupU.init : GroupU := { inForce := GroupRec.init, stage := 0, running := 0, lead := 0, short := false }

/-- The Fan Unit; the Start Queue holds (fan, Override mark). -/
structure Fan where
  fans : Tab FanU
  failed : Tab Bool
  stages : Tab Nat
  override : Override
  groups : Tab GroupU
  queue : List (Nat × Bool)
  interval : Option Nat
deriving DecidableEq, Repr

/-! ### The Terminal Block (Chapter 7) -/

/-- A terminal function with its argument (Table 7.1). -/
inductive Func where
  | gateIn (g : Nat)
  | gateOut (g : Nat)
  | smoke
  | fanFb (f : Nat)
  | plainIn
  | stageOut (z k : Nat)
  | gateFull (g : Nat)
  | alarmOut
  | plainOut (i : Nat)
deriving DecidableEq, Repr

/-- State of one terminal: the function in effect with its candidate place, the debounced state, the debounce and
exit-queue timers and the queue mark. -/
structure TermU where
  func : Option (Func × Nat)
  deb : Bool
  timer : Option Nat
  exitTimer : Option Nat
  mark : Bool
deriving DecidableEq, Repr

/-- R125. -/
def TermU.init : TermU := { func := none, deb := false, timer := none, exitTimer := none, mark := false }

/-- The Terminal Block; `lines` are the levels of the lines from outside, 1 for high. -/
structure Term where
  lines : BitVec 16
  terms : Tab TermU
  queued : Tab Bool
  smokeDeb : Bool
  smokeTimer : Option Nat
  stages : Tab Nat
  full : Tab Bool
  alarm : Bool
  override : Override
  gates : Tab GateRec
  fans : Tab FanRec
  zones : Tab ZoneRec
deriving DecidableEq, Repr

/-! ### The part -/

/-- The state of the part, with the commands that wait. -/
structure State where
  /-- Commands waiting, first in, first out. -/
  pending : List Instr
  /-- Memory as (address, byte) in canonical form; an unlisted byte is `memDefault`. -/
  mem : List Host.Cell
  mode : Mode
  resetCause : Byte
  configFault : Byte
  imageRevision : Byte
  /-- Milliseconds since the end of the last reset (R169). -/
  clock : Nat
  cfg : Cfg
  build : Build
  port : Port
  capture : Capture
  guard : Guard
  reflect : Reflect
  live : Live
  ring : Ring
  loops : Tab Loop
  occ : Occ
  guid : Guid
  light : Light
  air : Air
  fan : Fan
  term : Term
  /-- Messages on their way between blocks, oldest first. -/
  chan : List Msg
  /-- The model's own counter of free values (log 39). -/
  free : Nat
deriving DecidableEq, Repr

/-- What an address of memory that nothing has written reads as: DESIGN CHOICE 00h, unsafe (log 5). -/
def memDefault : Byte := 0

/-- Applied records after reset (R22): every index at its default. -/
def Applied.init : Applied :=
  { zone := [], group := [], fan := [], bay := [], channel := [], gate := [], sign := [] }

/-- R20: every map entry none. -/
def Maps.init : Maps := { input := [], output := [], fanNode := [], fanGroup := [], signNode := [] }

/-- R22. -/
def Capture.init : Capture := { marks := [], held := none, applied := Applied.init, maps := Maps.init }

/-- R155, R165. -/
def Port.init : Port := { commit := none, grant := false, single := false, counter := 0, wait := none, readData := 0 }

/-- R158. -/
def Guard.init : Guard := { locks := 0, hardZone := false, hardGroup := false, hardFan := false }

/-- R162. -/
def Reflect.init : Reflect := { list := [], current := none }

/-- R166, R173, R174, R175. -/
def Live.init : Live :=
  { pendingAtt := 0, enableAtt := 0, cmdWord := 0, result := 0, resultCmd := 0, plainOut := 0, snapshot := none,
    dropped := 0, laneDrops := 0, clamps := 0, lastDropped := 0 }

/-- R147. -/
def Ring.init : Ring :=
  { fetch := 0, completed := 0, overrun := false, index := 0, taken := 0, blocked := none, fetching := .idle,
    causeProducer := false, causeDeparture := false, slots := [], queues := [] }

/-- R23. -/
def Occ.init : Occ := { inputs := [], bays := [], zones := [], nodes := [] }

/-- R41. -/
def Guid.init : Guid := { zones := [], holds := [], nextId := 0, gates := [], signs := [], nodes := [] }

/-- R64. -/
def Light.init : Light := { chans := [], stages := [], override := .normal, nodes := [] }

/-- R77. -/
def Air.init : Air := { heads := [], zones := [], smoke := false, override := .normal, purgeTimer := none, alarm := false }

/-- R98. -/
def Fan.init : Fan :=
  { fans := [], failed := [], stages := [], override := .normal, groups := [], queue := [], interval := none }

/-- R125; the lines are outside the part. -/
def Term.init (lines : BitVec 16) : Term :=
  { lines := lines, terms := [], queued := [], smokeDeb := false, smokeTimer := none, stages := [], full := [],
    alarm := false, override := .normal, gates := [], fans := [], zones := [] }

/-- The part in LOADING right after a reset with this Reset Cause (R168): every block at its reset state; the queue of
commands, memory, the levels of the terminal lines and the counter of free values are not the part's to reset. -/
def State.afterReset (pending : List Instr) (mem : List Host.Cell) (lines : BitVec 16) (free : Nat) (cause : Byte) : State :=
  { pending := pending, mem := mem, mode := .loading, resetCause := cause, configFault := 0, imageRevision := 0,
    clock := 0, cfg := Cfg.none, build := { stage := 0, index := 0, word := 0 }, port := Port.init,
    capture := Capture.init, guard := Guard.init, reflect := Reflect.init, live := Live.init, ring := Ring.init,
    loops := [], occ := Occ.init, guid := Guid.init, light := Light.init, air := Air.init, fan := Fan.init,
    term := Term.init lines, chan := [], free := free }

/-- The machine right after reset: a power-on with nothing in memory, every terminal line low (log 6). -/
def State.reset : State := State.afterReset [] [] 0 0 1

/-- The reasons a command could stop the machine with a fault. There is none: the spec gives every step an effect in every
state (INVENTORY.md, Faults; log 1). -/
inductive Fault where
deriving DecidableEq, Repr

/-- The reasons a command could be turned away. -/
inductive Refusal where
  /-- Raised by an arm of exec whose command has no meaning yet; safe (the model stops where the hardware goes on). -/
  | notModelled (mnemonic : String)
deriving DecidableEq, Repr

end Sys2Proof.Machine
end

