-- ==== Sys2Proof/Machine/Flags.lean ====
section
/-! DEFINITION. Attention bits, the attention line and the saturating counters. -/

namespace Sys2Proof.Machine

/-- Bit number of an attention bit (Table 11.4). -/
def attnBit : Attn → Nat
  | .stage => 0
  | .gasUnknown => 1
  | .nodeFailed => 2
  | .loopBroken => 3
  | .override => 4
  | .fanFault => 5
  | .groupShort => 6
  | .ringDone => 7
  | .guardDrop => 8
  | .verdictReject => 9
  | .unguided => 10
  | .halted => 11

/-- The mask of one attention bit. -/
def attnMask (a : Attn) : BitVec 16 := BitVec.ofNat 16 (2 ^ attnBit a)

/-- R175: a cause sets its bit in Attention Pending; a bit already set stays set. -/
def Live.attend (v : Live) (a : Attn) : Live := { v with pendingAtt := v.pendingAtt ||| attnMask a }

/-- R175: the attention line is active while a pending bit is enabled, and while HALTED is pending. -/
def Live.attentionLine (v : Live) : Bool :=
  decide (v.pendingAtt &&& v.enableAtt ≠ 0) || v.pendingAtt.getLsbD (attnBit .halted)

/-- R142, R166: a 32-bit counter stays at its maximum. -/
def satInc (c : BitVec 32) (by_ : Nat) : BitVec 32 := BitVec.ofNat 32 (min (c.toNat + by_) 4294967295)

/-- R159: a dropped write is counted, its word address kept and GUARD_DROP set. -/
def Live.dropWrite (v : Live) (word : Nat) : Live :=
  { v.attend .guardDrop with dropped := satInc v.dropped 1, lastDropped := BitVec.ofNat 24 word }

/-- R157: a beat that has lost lanes counts once in Lane Drops. -/
def Live.laneDrop (v : Live) (lost : Bool) : Live := if lost then { v with laneDrops := satInc v.laneDrops 1 } else v

/-- R5: every replaced field counts once in Clamps. -/
def Live.clamp (v : Live) (n : Nat) : Live := { v with clamps := satInc v.clamps n }

end Sys2Proof.Machine
end

