-- ==== Sys2Proof/Machine/Ops.lean ====
section
/-! DEFINITION. The shared operations: sparse tables, memory, the clock, messages, and what a unit may do outside its own
state (its effects). -/

namespace Sys2Proof.Machine

/-! ### Sparse tables -/

/-- The entry at index `i`; an unlisted index has the default `d`. -/
def Tab.get {α : Type} (d : α) : Tab α → Nat → α
  | [], _ => d
  | (k, v) :: t, i => if i = k then v else Tab.get d t i

/-- The table without index `i`. -/
def Tab.erase {α : Type} (t : Tab α) (i : Nat) : Tab α := t.filter (fun e => decide (e.1 ≠ i))

/-- The table with one more entry, at its place by index. -/
def Tab.insert {α : Type} : Tab α → Nat → α → Tab α
  | [], i, v => [(i, v)]
  | (k, w) :: t, i, v => if i < k then (i, v) :: (k, w) :: t else (k, w) :: Tab.insert t i v

/-- Writes index `i`; writing the default removes the entry, so that equal tables are equal lists. -/
def Tab.set {α : Type} [DecidableEq α] (d : α) (t : Tab α) (i : Nat) (v : α) : Tab α :=
  if v = d then Tab.erase t i else Tab.insert (Tab.erase t i) i v

/-- The listed indices. -/
def Tab.keys {α : Type} (t : Tab α) : List Nat := t.map (fun e => e.1)

/-- Every listed index is above `lo`, in strictly rising order, and no entry equals the default. -/
def Tab.wfFrom {α : Type} [DecidableEq α] (d : α) : Option Nat → Tab α → Bool
  | _, [] => true
  | lo, (k, v) :: t => (match lo with | none => true | some m => decide (m < k)) && decide (v ≠ d) && Tab.wfFrom d (some k) t

/-- The canonical form of a table. -/
def Tab.wf {α : Type} [DecidableEq α] (d : α) (t : Tab α) : Bool := Tab.wfFrom d none t

/-! ### Memory -/

/-- The canonical form of memory: addresses strictly rising, no entry equal to what an unlisted address reads as. -/
def Memory.wf (m : List Host.Cell) : Bool := Tab.wf memDefault m

/-- Reads one byte. -/
def Memory.read (m : List Host.Cell) (a : Nat) : Byte := Tab.get memDefault m a

/-- Writes one byte. -/
def Memory.write (m : List Host.Cell) (a : Nat) (v : Byte) : List Host.Cell := Tab.set memDefault m a v

/-- Writes a run of (address, byte) pairs in order. -/
def Memory.writeAll (m : List Host.Cell) (bs : List (Nat × Byte)) : List Host.Cell :=
  bs.foldl (fun m b => Memory.write m b.1 b.2) m

/-- Reads `k` bytes from `a` upward. -/
def Memory.readAll (m : List Host.Cell) (a k : Nat) : List Byte := (List.range k).map (fun i => Memory.read m (a + i))

/-- Byte `i` of a little-endian word (spec 0.5). -/
def byteOf (w : Word) (i : Nat) : Byte := BitVec.ofNat 8 (w.toNat / 256 ^ i)

/-- The little-endian number of a list of bytes. -/
def natOfBytes : List Byte → Nat
  | [] => 0
  | b :: bs => b.toNat + 256 * natOfBytes bs

/-- The `k` low bytes of a number, low byte first. -/
def bytesOfNat : Nat → Nat → List Byte
  | 0, _ => []
  | k + 1, n => BitVec.ofNat 8 n :: bytesOfNat k (n / 256)

/-- A word of memory as a beat returns it. -/
def Memory.readWord (m : List Host.Cell) (a : Nat) : Word := BitVec.ofNat 32 (natOfBytes (Memory.readAll m a 4))

/-- The (address, byte) pairs of the enabled lanes of a write. -/
def lanesOf (word : Nat) (lanes : BitVec 4) (data : Word) : List (Nat × Byte) :=
  ((List.range 4).filter (fun i => lanes.getLsbD i)).map (fun i => (word + i, byteOf data i))

/-- Stores (address, byte) pairs in memory. -/
def State.store (s : State) (bs : List (Nat × Byte)) : State := { s with mem := Memory.writeAll s.mem bs }

/-! ### The Section Clock -/

/-- Whole seconds since the end of the last reset, without the 32-bit wrap (log 7). -/
def State.secs (s : State) : Nat := s.clock / 1000

/-- Section Time (R169). -/
def State.time (s : State) : BitVec 32 := BitVec.ofNat 32 s.secs

/-- R169: the expiry, in ms, of a timer of `n` seconds started now. -/
def State.inSecs (s : State) (n : Nat) : Nat := s.clock + 1000 * n

/-- R169: a running timer has run out once the clock has reached its expiry. -/
def State.due (s : State) (t : Option Nat) : Bool :=
  match t with
  | none => false
  | some e => decide (e ≤ s.clock)

/-! ### Loops, nodes and marks -/

/-- The key of a (loop, node) pair: distinct for loops 0 to 3 and nodes 1 to 32. -/
def nodeKey (l n : Nat) : Nat := 64 * l + n

/-- Loop `l`. -/
def State.loop (s : State) (l : Nat) : Loop := Tab.get Loop.init s.loops l

/-- Node `n` of a loop. -/
def Loop.node (L : Loop) (n : Nat) : Node := Tab.get Node.init L.nodes n

/-- The loop with node `n` replaced. -/
def Loop.setNode (L : Loop) (n : Nat) (nd : Node) : Loop := { L with nodes := Tab.set Node.init L.nodes n nd }

/-- R143: a clear mark is set and takes the tail of the pending order; a set mark keeps its place. -/
def Loop.setMark (L : Loop) (n : Nat) (m : Mark) : Loop :=
  if (n, m) ∈ L.order then L else { L with order := L.order ++ [(n, m)] }

/-- R143: the mark is cleared and leaves the pending order. -/
def Loop.clearMark (L : Loop) (n : Nat) (m : Mark) : Loop := { L with order := L.order.filter (fun x => decide (x ≠ (n, m))) }

/-- Configured Kind of a loop address (Table 8.4). -/
def State.kindOf (s : State) (l n : Nat) : NodeKind := ((s.loop l).node n).kind

/-- READY and WAITING are the usable states (Table 8.5). -/
def nodeUsable : NodeState → Bool
  | .ready | .waiting => true
  | .absent | .joining | .failed | .isolated => false

/-- The node addresses 1 to 32, in order. -/
def addresses : List Nat := (List.range 32).map (fun i => i + 1)

/-- Every (loop, node address) of the part, loop by loop in address order. -/
def nodePlaces : List (Nat × Nat) := (List.range 4).flatMap (fun l => addresses.map (fun n => (l, n)))

/-! ### Effects of a unit outside its own state -/

/-- What a unit's event does outside the unit. -/
inductive Eff where
  /-- Places a record on the Reflect List (R162). -/
  | reflect (r : RecName)
  | send (m : Msg)
  | attend (a : Attn)
  /-- Requests a pending mark (R143). -/
  | mark (l n : Nat) (m : Mark)
  /-- Withdraws a pending mark (R62, R143). -/
  | unmark (l n : Nat) (m : Mark)
  /-- Sets or releases the hard locks of ZONE, GROUP and FAN (R91, R94). -/
  | hardLocks (on : Bool)
deriving DecidableEq, Repr

/-- R162: a record joins at the tail unless it is in the list. -/
def Reflect.join (r : Reflect) (x : RecName) : Reflect := if x ∈ r.list then r else { r with list := r.list ++ [x] }

/-- One effect. -/
def State.effect (s : State) : Eff → State
  | .reflect r => { s with reflect := s.reflect.join r }
  | .send m => { s with chan := s.chan ++ [m] }
  | .attend a => { s with live := s.live.attend a }
  | .mark l n m => { s with loops := Tab.set Loop.init s.loops l ((s.loop l).setMark n m) }
  | .unmark l n m => { s with loops := Tab.set Loop.init s.loops l ((s.loop l).clearMark n m) }
  | .hardLocks on => { s with guard := { s.guard with hardZone := on, hardGroup := on, hardFan := on } }

/-- The effects of an event, in the order the unit makes them. -/
def State.emit (s : State) (es : List Eff) : State := es.foldl State.effect s

/-- A unit at work on one event: its state and the effects it has made so far, first to last. -/
structure Acc (U : Type) where
  u : U
  out : List Eff

/-- One more effect. -/
def Acc.say {U : Type} (a : Acc U) (e : Eff) : Acc U := { a with out := a.out ++ [e] }

/-- One more effect when `c` holds. -/
def Acc.sayIf {U : Type} (a : Acc U) (c : Bool) (e : Eff) : Acc U := if c then a.say e else a

/-- The unit's state replaced. -/
def Acc.put {U : Type} (a : Acc U) (u : U) : Acc U := { a with u := u }

/-- The work started on a unit's state. -/
def Acc.start {U : Type} (u : U) : Acc U := { u := u, out := [] }

/-- Does `f` for each element of a list, in order. -/
def Acc.each {U α : Type} (a : Acc U) (xs : List α) (f : Acc U → α → Acc U) : Acc U := xs.foldl f a

/-! ### Messages -/

/-- The first message of this sender and receiver. -/
def headMsg (src : Sender) (dst : UnitId) (ms : List Msg) : Option Msg :=
  ms.find? (fun m => decide (m.src = src ∧ m.dst = dst))

/-- The messages without the first of this sender and receiver. -/
def dropMsg (src : Sender) (dst : UnitId) : List Msg → List Msg
  | [] => []
  | m :: ms => if m.src = src ∧ m.dst = dst then ms else m :: dropMsg src dst ms

/-- The state once the first message of this sender and receiver has been taken. -/
def State.taken (s : State) (src : Sender) (dst : UnitId) : State := { s with chan := dropMsg src dst s.chan }

/-- The next message from `src` to `dst`. -/
def State.next? (s : State) (src : Sender) (dst : UnitId) : Option Body := (headMsg src dst s.chan).map (fun m => m.body)

/-- A unit takes the message `b`: when it is the next one from `src` to `dst`, the message leaves and `f` acts on the rest;
otherwise the event does not occur (logs 1 and 3). -/
def State.take (s : State) (src : Sender) (dst : UnitId) (b : Body) (f : State → State) : State :=
  if s.next? src dst = some b then f (s.taken src dst) else s

/-- R68: the waiting messages of the Air Unit that a stage notice to unit `u` may pass: at the Lighting Unit, the override
notice of the end of CLEARING (log 3). -/
def letsPass (u : UnitId) : Body → Bool
  | .override .normal _ => decide (u = .lighting)
  | _ => false

/-- The first message of this sender and receiver whose body does not let it pass. -/
def headPast (pass : Body → Bool) (src : Sender) (dst : UnitId) (ms : List Msg) : Option Msg :=
  ms.find? (fun m => decide (m.src = src ∧ m.dst = dst) && !pass m.body)

/-- The messages without that one. -/
def dropPast (pass : Body → Bool) (src : Sender) (dst : UnitId) (ms : List Msg) : List Msg :=
  ms.eraseP (fun m => decide (m.src = src ∧ m.dst = dst) && !pass m.body)

/-- The state once that message has been taken. -/
def State.takenPast (s : State) (pass : Body → Bool) (src : Sender) (dst : UnitId) : State :=
  { s with chan := dropPast pass src dst s.chan }

/-- The next message from `src` to `dst` whose body does not let it pass. -/
def State.nextPast? (s : State) (pass : Body → Bool) (src : Sender) (dst : UnitId) : Option Body :=
  (headPast pass src dst s.chan).map (fun m => m.body)

/-- A unit takes the message `b` past the waiting ones that let it pass (log 3). -/
def State.takePast (s : State) (pass : Body → Bool) (src : Sender) (dst : UnitId) (b : Body) (f : State → State) : State :=
  if s.nextPast? pass src dst = some b then f (s.takenPast pass src dst) else s

/-- An event acts when it is due, and does not occur otherwise (log 1). -/
def State.when_ (s : State) (c : Bool) (f : State → State) : State := if c then f s else s

/-- The outcome of a command that goes on. -/
def goOn (s : State) : Host.Outcome State Fault Refusal := .next s

end Sys2Proof.Machine
end

