-- ==== Sys2Proof/Machine/Operands.lean ====
section
/-! DEFINITION. The operands of commands: beats and their lanes, device command arguments, field frames and their check. -/

namespace Sys2Proof.Machine

/-! ### Beats -/

/-- The word address of a beat: its byte address with the two low bits cleared. -/
def Beat.word (b : Beat) : Nat := b.addr.toNat / 4 * 4

/-- The word address of the beat after `b` in its burst, if there is one (spec 0.1: incrementing, or wrapping at the burst
size). -/
def Beat.nextWord (b : Beat) : Option Nat :=
  if b.index + 1 < b.len.beats then
    let span := 4 * b.len.beats
    some (if b.wrap then Beat.word b / span * span + (Beat.word b + 4) % span else (Beat.word b + 4) % 16777216)
  else none

/-- Lane `i` of a beat is enabled. -/
def Beat.lane (b : Beat) (i : Nat) : Bool := b.lanes.getLsbD i

/-- A lane mask from a predicate on lanes. -/
def laneMask (p : Nat → Bool) : BitVec 4 :=
  BitVec.ofNat 4 ((if p 0 then 1 else 0) + (if p 1 then 2 else 0) + (if p 2 then 4 else 0) + (if p 3 then 8 else 0))

/-- A word from its four bytes. -/
def wordOf (f : Nat → Byte) : Word :=
  BitVec.ofNat 32 ((f 0).toNat + 256 * (f 1).toNat + 65536 * (f 2).toNat + 16777216 * (f 3).toNat)

/-- R174: an argument lane that is not enabled gives 0. -/
def argVal (a : Option Byte) : Nat :=
  match a with
  | none => 0
  | some b => b.toNat

/-- A word with its enabled lanes replaced (R173). -/
def mergeWord (old : Word) (lanes : BitVec 4) (new : Word) : Word :=
  wordOf (fun i => if lanes.getLsbD i then byteOf new i else byteOf old i)

/-- The beat of a device command (R174): lane 0 carries the code, lanes 1 to 3 the arguments, at FFF040h. -/
def commandLanes (a : CmdArgs) : BitVec 4 :=
  laneMask (fun i => if i = 0 then true else if i = 1 then a.arg1.isSome else if i = 2 then a.arg2.isSome else a.arg3.isSome)

/-- The data of that beat. -/
def commandData (code : Byte) (a : CmdArgs) : Word :=
  wordOf (fun i => if i = 0 then code else if i = 1 then a.arg1.getD 0 else if i = 2 then a.arg2.getD 0 else a.arg3.getD 0)

/-! ### Checks (R126, R170) -/

/-- One bit of the CRC-16 of R126, least significant bit first: A001h is the polynomial reflected. -/
def crc16Bit (c : BitVec 16) : BitVec 16 := if c.getLsbD 0 then (c >>> 1) ^^^ 0xA001#16 else c >>> 1

/-- One byte of the CRC-16. -/
def crc16Byte (c : BitVec 16) (b : Byte) : BitVec 16 :=
  (List.range 8).foldl (fun c _ => crc16Bit c) (c ^^^ BitVec.zeroExtend 16 b)

/-- R126: started from FFFFh, not complemented. -/
def crc16 (bs : List Byte) : BitVec 16 := bs.foldl crc16Byte 0xFFFF#16

/-- One bit of the CRC-32 of R170: EDB88320h is the polynomial reflected. -/
def crc32Bit (c : BitVec 32) : BitVec 32 := if c.getLsbD 0 then (c >>> 1) ^^^ 0xEDB88320#32 else c >>> 1

/-- One byte of the CRC-32. -/
def crc32Byte (c : BitVec 32) (b : Byte) : BitVec 32 :=
  (List.range 8).foldl (fun c _ => crc32Bit c) (c ^^^ BitVec.zeroExtend 32 b)

/-- R170: taken from FFFFFFFFh, with the result complemented. -/
def crc32 (bs : List Byte) : BitVec 32 := ~~~(bs.foldl crc32Byte 0xFFFFFFFF#32)

/-! ### Frames (Table 8.1) -/

/-- A frame of this address, control byte and payload, with its check low byte first. -/
def mkFrame (addr control : Nat) (payload : List Byte) : List Byte :=
  let body := BitVec.ofNat 8 addr :: BitVec.ofNat 8 control :: BitVec.ofNat 8 payload.length :: payload
  body ++ bytesOfNat 2 (crc16 body).toNat

/-- The control byte of a kind code and a Sequence. -/
def controlByte (kind seq : Nat) : Nat := 16 * kind + seq

/-- The ECHO to address 0 with no payload: the pass-through test of R135 and R138. -/
def testFrame : List Byte := mkFrame 0 (controlByte 8 0) []

/-- The discovery ECHO to a node (R137). -/
def echoFrame (n : Nat) : List Byte := mkFrame n (controlByte 8 0) []

/-- A well-formed received frame. -/
structure Received where
  addr : Nat
  control : Nat
  payload : List Byte
  whole : List Byte
deriving DecidableEq, Repr

/-- R126: the frame received after a break, or none when it is malformed: the line broke before Length + 5 bytes, the Length
exceeds 16, bit 3 of the Control is set or the Check does not match. -/
def parseFrame (bytes : List Byte) : Option Received :=
  let n := (bytes.getD 2 0).toNat
  if bytes.length < 3 || decide (16 < n) || decide (bytes.length < n + 5) then none
  else
    let body := bytes.take (n + 3)
    if (bytes.getD 1 0).getLsbD 3 then none
    else if bytesOfNat 2 (crc16 body).toNat = (bytes.drop (n + 3)).take 2 then
      some { addr := (bytes.getD 0 0).toNat, control := (bytes.getD 1 0).toNat, payload := body.drop 3,
             whole := bytes.take (n + 5) }
    else none

/-- The payload of a frame of the part's own making. -/
def framePayload (frame : List Byte) : List Byte := (frame.drop 3).take (frame.getD 2 0).toNat

/-- Byte `i` of a reply's payload; a byte the reply does not carry is a free value (log 19). -/
def replyByte (free : Nat) (payload : List Byte) (i : Nat) : Byte := payload.getD i (Config.freeByte (free + i))

/-- A 16-bit payload field, low byte first (Table 8.1). -/
def reply16 (free : Nat) (payload : List Byte) (i : Nat) : Nat :=
  (replyByte free payload i).toNat + 256 * (replyByte free payload (i + 1)).toNat

/-- A 32-bit payload field, low byte first. -/
def reply32 (free : Nat) (payload : List Byte) (i : Nat) : Nat :=
  reply16 free payload i + 65536 * reply16 free payload (i + 2)

end Sys2Proof.Machine
end

