-- ==== Sys2Proof/Machine/Records.lean ====
section
/-! DEFINITION. The section tables of Chapter 1: geometry, layouts, decoding of host-owned bytes, default images, the
validation of Section 1.7 and the ownership maps. -/

namespace Sys2Proof.Machine

/-! ### Geometry (Table 1.1, R1, R156, R158) -/

/-- Table id. -/
def tableId : Table → Nat
  | .zone => 0
  | .group => 1
  | .fan => 2
  | .bay => 3
  | .channel => 4
  | .gate => 5
  | .sign => 6

/-- The tables in table-id order. -/
def tables : List Table := [.zone, .group, .fan, .bay, .channel, .gate, .sign]

/-- Record size in bytes. -/
def recSize : Table → Nat
  | .zone => 64
  | .group => 64
  | .fan => 32
  | .bay => 16
  | .channel => 16
  | .gate => 64
  | .sign => 64

/-- Native maximum. -/
def nativeMax : Table → Nat
  | .zone => 16
  | .group => 12
  | .fan => 48
  | .bay => 2048
  | .channel => 64
  | .gate => 8
  | .sign => 32

/-- Offset of the Commit byte: the last host-owned byte (Section 1.3). -/
def commitOffset : Table → Nat
  | .zone => 29
  | .group => 21
  | .fan => 4
  | .bay => 7
  | .channel => 9
  | .gate => 36
  | .sign => 19

/-- R3: the host-owned bytes of every layout run from byte 0 to the Commit byte. -/
def hostOwned (t : Table) (off : Nat) : Bool := decide (off ≤ commitOffset t)

/-- The listed part-owned bytes of a record (Tables 1.2 to 1.8), of the ring header and of a slot (Tables 9.4, 9.5). -/
def listedPart : RecName → List Nat
  | .record .zone _ => (List.range 21).map (· + 32) ++ (List.range 4).map (· + 56)
  | .record .group _ => (List.range 5).map (· + 32)
  | .record .fan _ => (List.range 11).map (· + 8)
  | .record .bay _ => (List.range 8).map (· + 8)
  | .record .channel _ => (List.range 4).map (· + 10)
  | .record .gate _ => (List.range 9).map (· + 40)
  | .record .sign _ => (List.range 22).map (· + 24)
  | .header => (List.range 6).map (· + 2)
  | .slot _ => (List.range 5).map (· + 24) ++ (List.range 16).map (· + 32)

/-- R157: the part-owned bytes of the ring header and of a slot. -/
def ringPartOwned (header : Bool) (off : Nat) : Bool :=
  if header then decide (2 ≤ off) else decide (off = 6 ∨ off = 7 ∨ 24 ≤ off)

/-- The key of a record among all tables. -/
def recKey (t : Table) (i : Nat) : Nat := 2048 * tableId t + i

/-- Entry `k` of the Window Map. -/
def State.window (s : State) (k : Nat) : WinEntry := s.cfg.windows.getD k { base := 0, len := 0, present := false }

/-- In-effect count of a table (R1). -/
def State.count (s : State) (t : Table) : Nat := s.cfg.counts.getD (tableId t) 0

/-- In-effect slot count of the ring (R147). -/
def State.ringCount (s : State) : Nat := s.cfg.counts.getD 7 0

/-- R156: the windows are in effect in BUILDING and RUN. -/
def State.windowsInEffect (s : State) : Bool := decide (s.mode = .building ∨ s.mode = .run)

/-- The byte address of a record, the ring header or a slot (R1, R147). -/
def State.recAddr (s : State) : RecName → Nat
  | .record t i => 256 * (s.window (tableId t)).base + recSize t * i
  | .header => 256 * (s.window 7).base
  | .slot i => 256 * (s.window 7).base + 64 + 48 * i

/-- The class of a beat (R156). `tableEnd` and `ringEnd` are beats of a window beyond its last in-effect record or slot. -/
inductive BeatClass where
  | live
  | table (t : Table) (i off : Nat)
  | tableEnd (t : Table)
  | header (off : Nat)
  | slot (i off : Nat)
  | ringEnd
  | plain
deriving DecidableEq, Repr

/-- A word address lies in a present window. -/
def windowHolds (w : WinEntry) (a : Nat) : Bool := w.present && decide (256 * w.base ≤ a ∧ a < 256 * (w.base + w.len))

/-- R156, R1: each beat is classified by its address alone. -/
def State.classify (s : State) (a : Nat) : BeatClass :=
  if 0xFFF000 ≤ a then .live
  else if s.windowsInEffect then
    match tables.find? (fun t => windowHolds (s.window (tableId t)) a) with
    | some t =>
      let off := a - 256 * (s.window (tableId t)).base
      if off / recSize t < s.count t then .table t (off / recSize t) (off % recSize t) else .tableEnd t
    | none =>
      if windowHolds (s.window 7) a then
        let off := a - 256 * (s.window 7).base
        if off < 64 then .header off
        else if (off - 64) / 48 < s.ringCount then .slot ((off - 64) / 48) ((off - 64) % 48) else .ringEnd
      else .plain
  else .plain

/-- R158: where the run of a table's granules begins among the guard indices. -/
def State.guardBase (s : State) (t : Table) : Nat :=
  ((tables.filter (fun u => decide (tableId u < tableId t) && (s.window (tableId u)).present)).map
    (fun u => (s.window (tableId u)).len)).sum

/-- R158: the guard index of the granule that holds an address of a table's window. -/
def State.guardIndex (s : State) (t : Table) (a : Nat) : Nat := s.guardBase t + (a / 256 - (s.window (tableId t)).base)

/-- The table whose window a guard index belongs to. -/
def State.guardTable (s : State) (g : Nat) : Option Table :=
  tables.find? (fun t => (s.window (tableId t)).present &&
    decide (s.guardBase t ≤ g ∧ g < s.guardBase t + (s.window (tableId t)).len))

/-- R158: a table's hard-lock flag. -/
def Guard.hard (g : Guard) : Table → Bool
  | .zone => g.hardZone
  | .group => g.hardGroup
  | .fan => g.hardFan
  | .bay | .channel | .gate | .sign => false

/-! ### Decoding host-owned bytes (Tables 1.2 to 1.8) -/

/-- Byte `i` as a number. -/
def num8 (bs : List Byte) (i : Nat) : Nat := (bs.getD i 0).toNat

/-- The 16-bit field at `i`, low byte first. -/
def num16 (bs : List Byte) (i : Nat) : Nat := num8 bs i + 256 * num8 bs (i + 1)

/-- Bit `k` of byte `i`. -/
def bitAt (bs : List Byte) (i k : Nat) : Bool := (bs.getD i 0).getLsbD k

/-- Table 1.2. -/
def zoneOf (bs : List Byte) : ZoneRec :=
  { co1 := num16 bs 0, co2 := num16 bs 2, co3 := num16 bs 4, coPurge := num16 bs 6, no21 := num16 bs 8,
    no22 := num16 bs 10, no23 := num16 bs 12, coMargin := num8 bs 14, no2Margin := num8 bs 15, holdDown := num8 bs 16,
    floor := num8 bs 17, ceiling := num8 bs 18, trafficHold := num8 bs 19,
    heads := (List.range 4).map (fun h => (num8 bs (20 + 2 * h), num8 bs (21 + 2 * h))),
    closed := bitAt bs 28 0, enabled := bitAt bs 29 0 }

/-- Table 1.3. -/
def groupOf (bs : List Byte) : GroupRec :=
  { zoneSet := BitVec.ofNat 16 (num16 bs 0),
    pattern := (List.range 5).map (fun k => (num8 bs (2 + 2 * k), num8 bs (3 + 2 * k))),
    duty := (List.range 8).map (fun k => num8 bs (12 + k)), action := num8 bs 20, enabled := bitAt bs 21 0 }

/-- Table 1.4. -/
def fanOf (bs : List Byte) : FanRec :=
  { loop := num8 bs 0, node := num8 bs 1, terminal := num8 bs 2, isolate := bitAt bs 3 0, enabled := bitAt bs 4 0 }

/-- Table 1.5. -/
def bayOf (bs : List Byte) : BayRec :=
  { loop := num8 bs 0, node := num8 bs 1, input := num8 bs 2, zone := num8 bs 3, cls := num8 bs 4, channel := num8 bs 5,
    closed := bitAt bs 6 0, enabled := bitAt bs 7 0 }

/-- Table 1.6. -/
def channelOf (bs : List Byte) : ChannelRec :=
  { loop := num8 bs 0, node := num8 bs 1, output := num8 bs 2, zone := num8 bs 3, idle := num8 bs 4,
    presence := num8 bs 5, route := num8 bs 6, hold := num16 bs 7, enabled := bitAt bs 9 0 }

/-- Table 1.7. -/
def gateOf (bs : List Byte) : GateRec :=
  { pref := (List.range 6).map (fun p => num8 bs p), margin := num8 bs 6, zone := num8 bs 7, expiry := num16 bs 8,
    exitQueue := num16 bs 10,
    routes := (List.range 6).map (fun p => (List.range 4).map (fun j => num8 bs (12 + 4 * p + j))),
    enabled := bitAt bs 36 0 }

/-- Table 1.8. -/
def signOf (bs : List Byte) : SignRec :=
  { loop := num8 bs 0, node := num8 bs 1, mode := num8 bs 2,
    lines := (List.range 4).map (fun l =>
      { mask := BitVec.ofNat 16 (num16 bs (3 + 4 * l)), arrow := num8 bs (5 + 4 * l), cls := num8 bs (6 + 4 * l) }),
    enabled := bitAt bs 19 0 }

/-- The record that a table's host-owned area spells. -/
def recordOf (t : Table) (bs : List Byte) : AnyRec :=
  match t with
  | .zone => .zone (zoneOf bs)
  | .group => .group (groupOf bs)
  | .fan => .fan (fanOf bs)
  | .bay => .bay (bayOf bs)
  | .channel => .channel (channelOf bs)
  | .gate => .gate (gateOf bs)
  | .sign => .sign (signOf bs)

/-- The record's Enable. -/
def AnyRec.enabled : AnyRec → Bool
  | .zone r => r.enabled
  | .group r => r.enabled
  | .fan r => r.enabled
  | .bay r => r.enabled
  | .channel r => r.enabled
  | .gate r => r.enabled
  | .sign r => r.enabled

/-- The applied record `i` of a table. -/
def Applied.at_ (a : Applied) (t : Table) (i : Nat) : AnyRec :=
  match t with
  | .zone => .zone (Tab.get ZoneRec.init a.zone i)
  | .group => .group (Tab.get GroupRec.init a.group i)
  | .fan => .fan (Tab.get FanRec.init a.fan i)
  | .bay => .bay (Tab.get BayRec.init a.bay i)
  | .channel => .channel (Tab.get ChannelRec.init a.channel i)
  | .gate => .gate (Tab.get GateRec.init a.gate i)
  | .sign => .sign (Tab.get SignRec.init a.sign i)

/-- The applied records with record `i` of the record's own table replaced. -/
def Applied.put (a : Applied) (i : Nat) (r : AnyRec) : Applied :=
  match r with
  | .zone r => { a with zone := Tab.set ZoneRec.init a.zone i r }
  | .group r => { a with group := Tab.set GroupRec.init a.group i r }
  | .fan r => { a with fan := Tab.set FanRec.init a.fan i r }
  | .bay r => { a with bay := Tab.set BayRec.init a.bay i r }
  | .channel r => { a with channel := Tab.set ChannelRec.init a.channel i r }
  | .gate r => { a with gate := Tab.set GateRec.init a.gate i r }
  | .sign r => { a with sign := Tab.set SignRec.init a.sign i r }

/-! ### Default images (Table 1.11) -/

/-- Byte `off` of the default image of a table's record. -/
def defaultByte (c : Cfg) (t : Table) (off : Nat) : Byte :=
  match t with
  | .zone => if off < 16 then c.params.thresholds.getD off 0 else if off = 50 then 2 else if off = 51 then 16
             else if off = 52 then 1 else 0
  | .group => if 12 ≤ off ∧ off < 20 then 255 else if off = 36 then 1 else 0
  | .fan => if off = 2 then 255 else if off = 9 then 1 else 0
  | .bay => if off = 5 then 255 else if off = 9 then 1 else 0
  | .channel => if off = 13 then 1 else 0
  | .gate => if off < 6 ∨ (12 ≤ off ∧ off < 36) ∨ off = 40 then 255 else if off = 48 then 1 else 0
  | .sign => if off = 27 ∨ off = 31 ∨ off = 35 ∨ off = 39 then 3 else if off = 41 then 1 else 0

/-! ### Validation (Section 1.7): each check gives the codes of Table 1.9 -/

/-- A loop number in range. -/
def loopOk (l : Nat) : Bool := decide (l ≤ 3)

/-- R10: the code of the first class that fails, or none when every check passes. -/
def firstFail (range order ref dup : Bool) : Option Nat :=
  if !range then some 4 else if !order then some 5 else if !ref then some 6 else if !dup then some 7 else none

/-- The range and order checks of R13 on thresholds under the Safety Maxima; R171 makes the same on the image's. -/
def thresholdsRange (p : Params) (r : ZoneRec) : Bool :=
  decide (r.co1 ≤ p.coMax ∧ r.co2 ≤ p.coMax ∧ r.co3 ≤ p.coMax ∧ r.coPurge ≤ p.coMax ∧
    r.no21 ≤ p.no2Max ∧ r.no22 ≤ p.no2Max ∧ r.no23 ≤ p.no2Max)

/-- R13, order. -/
def thresholdsOrder (r : ZoneRec) : Bool :=
  decide (r.co1 ≤ r.co2 ∧ r.co2 ≤ r.co3 ∧ r.co3 ≤ r.coPurge ∧ r.no21 ≤ r.no22 ∧ r.no22 ≤ r.no23 ∧
    r.coMargin < r.co1 ∧ r.no2Margin < r.no21)

/-- A reference that is "none" (255) or below a count (R2). -/
def refOk (x count : Nat) : Bool := decide (x = 255 ∨ x < count)

/-- No bit of a zone mask at or above the zone count. -/
def maskOk (m : BitVec 16) (count : Nat) : Bool := decide (m.toNat < 2 ^ count)

/-- A claim conflicts when another record holds it (R20). -/
def claimFree (m : Tab (Option Nat)) (k i : Nat) : Bool :=
  match Tab.get none m k with
  | none => true
  | some j => decide (j = i)

/-- Key of a sensor input in the Input Map. -/
def inputKey (l n i : Nat) : Nat := 16 * nodeKey l n + i

/-- Key of a light output in the output map. -/
def outputKey (l n o : Nat) : Nat := 4 * nodeKey l n + o

/-- The non-empty entries of a Duty List, in list order (R100). -/
def dutySeq (r : GroupRec) : List Nat := r.duty.filter (fun f => decide (f ≠ 255))

/-- No element twice. -/
def noRepeat : List Nat → Bool
  | [] => true
  | x :: xs => decide (x ∉ xs) && noRepeat xs

/-- R13. -/
def checkZone (s : State) (r : ZoneRec) : Option Nat :=
  firstFail
    (thresholdsRange s.cfg.params r && decide (r.floor ≤ 4 ∧ r.ceiling ≤ 3) &&
      r.heads.all (fun h => decide (h.2 = 0) || (loopOk h.1 && nodeOk h.2)))
    (thresholdsOrder r)
    (r.heads.all (fun h => decide (h.2 = 0) || decide (s.kindOf h.1 h.2 = .gas)))
    true

/-- R14. -/
def checkGroup (s : State) (m : Maps) (i : Nat) (r : GroupRec) : Option Nat :=
  firstFail
    (r.pattern.all (fun p => decide (p.1 ≤ 8 ∧ p.2 ≤ 100)) && decide (r.action ≤ 2))
    true
    (maskOk r.zoneSet (s.count .zone) && r.duty.all (fun f => refOk f (s.count .fan)))
    (noRepeat (dutySeq r) && (dutySeq r).all (fun f => claimFree m.fanGroup f i))

/-- R15. -/
def checkFan (s : State) (m : Maps) (i : Nat) (r : FanRec) : Option Nat :=
  firstFail
    (loopOk r.loop && nodeOk r.node)
    true
    (decide (s.kindOf r.loop r.node = .fan) && decide (r.terminal ≤ 15 ∨ r.terminal = 255))
    (claimFree m.fanNode (nodeKey r.loop r.node) i)

/-- R16. -/
def checkBay (s : State) (m : Maps) (i : Nat) (r : BayRec) : Option Nat :=
  firstFail
    (loopOk r.loop && nodeOk r.node && decide (r.input ≤ 15 ∧ r.cls ≤ 2))
    true
    (decide (s.kindOf r.loop r.node = .bay) && decide (r.zone < s.count .zone) && refOk r.channel (s.count .channel))
    (claimFree m.input (inputKey r.loop r.node r.input) i)

/-- R17. -/
def checkChannel (s : State) (m : Maps) (i : Nat) (r : ChannelRec) : Option Nat :=
  firstFail
    (decide (s.cfg.params.minLight ≤ r.idle ∧ r.idle ≤ 100 ∧ r.presence ≤ 100 ∧ r.route ≤ 100 ∧
      10 ≤ r.hold ∧ r.hold ≤ 3600 ∧ r.output ≤ 3) && loopOk r.loop && nodeOk r.node)
    true
    (decide (s.kindOf r.loop r.node = .light) && decide (r.zone < s.count .zone))
    (claimFree m.output (outputKey r.loop r.node r.output) i)

/-- R18. -/
def checkGate (s : State) (r : GateRec) : Option Nat :=
  firstFail
    (decide (r.margin ≤ 50 ∧ 30 ≤ r.expiry ∧ r.expiry ≤ 1800 ∧ 5 ≤ r.exitQueue ∧ r.exitQueue ≤ 600))
    true
    (r.pref.all (fun z => refOk z (s.count .zone)) && decide (r.zone < s.count .zone) &&
      r.routes.all (fun js => js.all (fun ch => refOk ch (s.count .channel))))
    true

/-- R19. -/
def checkSign (s : State) (m : Maps) (i : Nat) (r : SignRec) : Option Nat :=
  firstFail
    (loopOk r.loop && nodeOk r.node && decide (r.mode ≤ 2) && r.lines.all (fun x => decide (x.arrow ≤ 5 ∧ x.cls ≤ 2)))
    true
    (decide (s.kindOf r.loop r.node = .sign) && r.lines.all (fun x => maskOk x.mask (s.count .zone)))
    (claimFree m.signNode (nodeKey r.loop r.node) i)

/-- R10: the verdict code of the first failing class for a record read back with Enable 1, or none. -/
def checkRecord (s : State) (m : Maps) (i : Nat) : AnyRec → Option Nat
  | .zone r => checkZone s r
  | .group r => checkGroup s m i r
  | .fan r => checkFan s m i r
  | .bay r => checkBay s m i r
  | .channel r => checkChannel s m i r
  | .gate r => checkGate s r
  | .sign r => checkSign s m i r

/-- Enters (`v = some i`) or releases (`v = none`) the claims that an enabled record's content names (R20). A disabled
record holds none. -/
def Maps.claim (m : Maps) (r : AnyRec) (v : Option Nat) : Maps :=
  if r.enabled then
    match r with
    | .group r => { m with fanGroup := (dutySeq r).foldl (fun t f => Tab.set none t f v) m.fanGroup }
    | .fan r => { m with fanNode := Tab.set none m.fanNode (nodeKey r.loop r.node) v }
    | .bay r => { m with input := Tab.set none m.input (inputKey r.loop r.node r.input) v }
    | .channel r => { m with output := Tab.set none m.output (outputKey r.loop r.node r.output) v }
    | .sign r => { m with signNode := Tab.set none m.signNode (nodeKey r.loop r.node) v }
    | .zone _ | .gate _ => m
  else m

/-- The bay that the Input Map names at an input of a BAY node (Table 1.10). -/
def Maps.bayAt (m : Maps) (l n i : Nat) : Option Nat := Tab.get none m.input (inputKey l n i)

/-- The channel that the output map names at an output of a LIGHT node. -/
def Maps.chanAt (m : Maps) (l n o : Nat) : Option Nat := Tab.get none m.output (outputKey l n o)

/-- The fan that the fan node map names on a node. -/
def Maps.fanAt (m : Maps) (l n : Nat) : Option Nat := Tab.get none m.fanNode (nodeKey l n)

/-- The group that the fan-to-group map names for a fan. -/
def Maps.groupOf (m : Maps) (f : Nat) : Option Nat := Tab.get none m.fanGroup f

/-- The sign that the sign node map names on a node. -/
def Maps.signAt (m : Maps) (l n : Nat) : Option Nat := Tab.get none m.signNode (nodeKey l n)

/-- The ownership maps as they stand: Table Capture keeps them, and the Lighting, Fan and Guidance Units find their objects by
them (R20). The Occupancy Unit has the Input Map as its commits leave it (R40, log 4). -/
abbrev State.maps (s : State) : Maps := s.capture.maps

end Sys2Proof.Machine
end

