-- ==== Sys2Proof/Machine/AirUnit.lean ====
section
/-! DEFINITION. The Air Unit (Chapter 5): gas heads, demands, the Applied Stage and the smoke override. -/

namespace Sys2Proof.Machine

/-- The head at node `n` of loop `l`. -/
def Air.head (u : Air) (l n : Nat) : Head := Tab.get Head.init u.heads (nodeKey l n)

/-- That head replaced. -/
def Air.setHead (u : Air) (l n : Nat) (h : Head) : Air := { u with heads := Tab.set Head.init u.heads (nodeKey l n) h }

/-- Zone `z`. -/
def Air.zone (u : Air) (z : Nat) : AZone := Tab.get AZone.init u.zones z

/-- Zone `z` replaced. -/
def Air.setZone (u : Air) (z : Nat) (x : AZone) : Air := { u with zones := Tab.set AZone.init u.zones z x }

/-- The unit at work. -/
abbrev AirAcc := Acc Air

/-- A message of the unit. -/
def airSend (dst : UnitId) (b : Body) : Eff := .send { src := .air, dst := dst, body := b }

/-! ### Heads and zone values (Sections 5.2, 5.3) -/

/-- R78: a head is valid while usable, fresh, and with all three flags clear. -/
def Head.valid (h : Head) : Bool := h.usable && h.fresh.isSome && !h.fault && !h.zeroing && !h.zeroFailed

/-- R78: the integer mean of the CO values of the ring. -/
def Head.coMean (h : Head) : Nat := (h.ring.map (fun p => p.1)).sum / h.ring.length

/-- R78: the integer mean of the NO2 values of the ring. -/
def Head.no2Mean (h : Head) : Nat := (h.ring.map (fun p => p.2)).sum / h.ring.length

/-- R78: the CO of the newest sample. -/
def Head.newest (h : Head) : Nat := (h.ring.getLastD (0, 0)).1

/-- R95: the heads in effect of a record: the distinct heads whose Node is not 0. -/
def headsOf (r : ZoneRec) : List (Nat × Nat) :=
  r.heads.foldl (fun acc h => if h.2 = 0 ∨ h ∈ acc then acc else acc ++ [h]) []

/-- The valid heads in effect of a zone's record. -/
def validHeads (u : Air) (r : ZoneRec) : List Head :=
  ((headsOf r).map (fun p => u.head p.1 p.2)).filter (fun h => h.valid)

/-- The greatest of a list, 0 when it is empty. -/
def maxOf (xs : List Nat) : Nat := xs.foldl max 0

/-- R83: the level that a value gives with hysteresis: the highest k whose Rise the value reaches, or that is held (k at
most the current level) while the value stays within the margin of its Rise. -/
def levelFor (value r1 r2 r3 margin held : Nat) : Nat :=
  let ok (k rise : Nat) : Bool := decide (rise ≤ value) || (decide (k ≤ held) && decide (rise - margin ≤ value))
  if ok 3 r3 then 3 else if ok 2 r2 then 2 else if ok 1 r1 then 1 else 0

/-- R84: the Purge Latch after an evaluation over the newest samples of the valid heads. -/
def purgeFor (r : ZoneRec) (hs : List Head) (held : Bool) : Bool :=
  if hs.any (fun h => decide (r.coPurge ≤ h.newest)) then true
  else if hs.all (fun h => decide (h.newest < r.coPurge - r.coMargin)) then false
  else held

/-- R82, R83, R84: the values, flags, levels, latch and Gas Demand of an enabled zone. -/
def gasOf (u : Air) (x : AZone) : AZone :=
  let r := x.inForce
  let hs := validHeads u r
  if headsOf r = [] then
    { x with gasUnknown := false, noHeads := true, co := 0, no2 := 0, coLevel := 0, no2Level := 0, purge := false,
             gasDemand := 0 }
  else if hs = [] then
    { x with gasUnknown := true, noHeads := false, co := 0, no2 := 0, coLevel := 0, no2Level := 0, purge := false,
             gasDemand := 0 }
  else
    let co := maxOf (hs.map Head.coMean)
    let no2 := maxOf (hs.map Head.no2Mean)
    let cl := levelFor co r.co1 r.co2 r.co3 r.coMargin x.coLevel
    let nl := levelFor no2 r.no21 r.no22 r.no23 r.no2Margin x.no2Level
    let p := purgeFor r hs x.purge
    { x with gasUnknown := false, noHeads := false, co := co, no2 := no2, coLevel := cl, no2Level := nl, purge := p,
             gasDemand := if p then 4 else max cl nl }

/-- R86: the Traffic Demand of a zone. -/
def trafficOf (x : AZone) : Nat :=
  if x.inForce.enabled && decide (x.inForce.trafficHold ≠ 0) then
    (if 0 < x.queue then 2 else if x.trafficTimer.isSome then 1 else 0)
  else 0

/-- R85, R86: the Fail and Traffic Demands and D of an enabled zone. -/
def demandOf (x : AZone) : AZone :=
  let fail := if x.gasUnknown then 2 else 0
  let traffic := trafficOf x
  { x with failDemand := fail, trafficDemand := traffic,
           demand := max x.gasDemand (max fail (max (min traffic x.inForce.ceiling) x.inForce.floor)) }

/-- R87: the Hold-down time in seconds. -/
def holdDownSecs (r : ZoneRec) : Nat := if r.holdDown = 0 then 1800 else 15 * r.holdDown

/-- R88: the Applied Stage of a zone becomes `k`; a change is recorded, reflected, flagged and noticed. `guidance` says
whether Guidance gets a notice of its own (not at the passage to CLEARING, R92). -/
def setStage (s : State) (a : AirAcc) (z k : Nat) (guidance : Bool) : AirAcc :=
  let x := a.u.zone z
  if x.stage = k then a
  else
    let a := (a.put (a.u.setZone z { x with stage := k, since := s.time })).say (.reflect (.record .zone z))
    let a := a.say (.attend .stage)
    let a := ((a.say (airSend .fan (.stage z k))).say (airSend .lighting (.stage z k))).say (airSend .terminal (.stage z k))
    a.sayIf guidance (airSend .guidance (.stage z k))

/-- R87: the stage rule for an enabled zone; in CLEARING the stage is held. -/
def stageRule (s : State) (a : AirAcc) (z : Nat) : AirAcc :=
  let x := a.u.zone z
  if a.u.override = .clearing then a
  else if x.stage < x.demand then setStage s (a.put (a.u.setZone z { x with holdDown := none })) z x.demand true
  else if x.demand < x.stage then
    (if x.holdDown.isNone then a.put (a.u.setZone z { x with holdDown := some (s.inSecs (holdDownSecs x.inForce)) }) else a)
  else a.put (a.u.setZone z { x with holdDown := none })

/-- The part-owned air fields of two states of a zone differ (R82, R83, R86). -/
def airFieldsDiffer (x y : AZone) : Bool :=
  decide (x.co ≠ y.co ∨ x.no2 ≠ y.no2 ∨ x.gasUnknown ≠ y.gasUnknown ∨ x.noHeads ≠ y.noHeads ∨
    x.gasDemand ≠ y.gasDemand ∨ x.trafficDemand ≠ y.trafficDemand)

/-- A zone's new state put in place: a change of an air field is reflected and an entry into gas-unknown flagged (R82). -/
def putZone (a : AirAcc) (z : Nat) (y : AZone) : AirAcc :=
  let x := a.u.zone z
  let a := (a.put (a.u.setZone z y)).sayIf (airFieldsDiffer x y) (.reflect (.record .zone z))
  a.sayIf (y.gasUnknown && !x.gasUnknown) (.attend .gasUnknown)

/-- R97: evaluates one zone: values and flags, levels, latch and Gas Demand, Fail and Traffic Demands and D, then S. -/
def airZone (s : State) (a : AirAcc) (z : Nat) : AirAcc :=
  let x := a.u.zone z
  if x.inForce.enabled then stageRule s (putZone a z (demandOf (gasOf a.u x))) z else a

/-- R89: the Alarm condition. -/
def alarmOf (u : Air) : Bool :=
  decide (u.override = .active) || u.zones.any (fun e => e.2.inForce.enabled && decide (3 ≤ e.2.gasDemand))

/-- R89: evaluates the Alarm condition; a change is noticed to the Terminal Block. -/
def evalAlarm (a : AirAcc) : AirAcc :=
  let c := alarmOf a.u
  if c = a.u.alarm then a else (a.put { a.u with alarm := c }).say (airSend .terminal (.alarm c))

/-- The unit's event put into the part, the Alarm condition last (R97). -/
def State.withAir (s : State) (a : AirAcc) : State :=
  let a := evalAlarm a
  State.emit { s with air := a.u } a.out

/-- The enabled zones that have a head in effect, in zone order. -/
def zonesOfHead (u : Air) (l n : Nat) : List Nat :=
  (List.range 16).filter (fun z => (u.zone z).inForce.enabled &&
    (headsOf (u.zone z).inForce).any (fun p => decide (nodeKey p.1 p.2 = nodeKey l n)))

/-- A head's new state, then every zone that includes it, in zone order (R78, R97). -/
def headEvent (s : State) (a : AirAcc) (l n : Nat) (h : Head) : State :=
  let a := a.put (a.u.setHead l n h)
  s.withAir (a.each (zonesOfHead a.u l n) (airZone s))

/-- R79: the head after a DONE POLL reply. -/
def gasReply (s : State) (h : Head) (co no2 : Nat) (flags : Byte) : Head :=
  let fault := flags.getLsbD 0
  let zeroing := flags.getLsbD 1
  let zeroFailed := flags.getLsbD 2
  let ended := !zeroing && h.zeroing
  let h1 := if (zeroing && !h.zeroing) || ended then { h with ring := [], fresh := none } else h
  let h2 := { h1 with fault := fault, zeroing := zeroing, zeroFailed := zeroFailed }
  if !fault && !zeroing && !zeroFailed && !ended then
    { h2 with ring := (if h2.ring.length < 8 then h2.ring else h2.ring.drop (h2.ring.length - 7)) ++ [(co, no2)],
              fresh := some (s.inSecs (3 * s.cfg.params.gasPoll)) }
  else h2

/-- R79: a DONE POLL reply of a GAS node. -/
def airPoll (s : State) (l n : Nat) (co no2 : Nat) (flags : Byte) : State :=
  let h := s.air.head l n
  let a := (Acc.start s.air).sayIf (flags.getLsbD 2 && !h.zeroFailed) (.attend .gasUnknown)
  headEvent s a l n (gasReply s h co no2 flags)

/-- R80: a node notice of a GAS node. -/
def airNotice (s : State) (l n : Nat) (old new : NodeState) : State :=
  if nodeUsable old && !nodeUsable new then headEvent s (Acc.start s.air) l n Head.init
  else if !nodeUsable old && nodeUsable new then
    headEvent s (Acc.start s.air) l n { s.air.head l n with usable := true }
  else s

/-- R80: a freshness timer has run out; the ring is kept. -/
def airStale (s : State) (l n : Nat) : State :=
  headEvent s (Acc.start s.air) l n { s.air.head l n with fresh := none }

/-- R81: the node is the last valid head of a zone. -/
def lastHead (u : Air) (l n : Nat) : Bool :=
  (u.head l n).valid && (zonesOfHead u l n).any (fun z =>
    (headsOf (u.zone z).inForce).all (fun p => decide (p = (l, n)) || !(u.head p.1 p.2).valid))

/-! ### Traffic (R86) -/

/-- R86: a traffic notice. -/
def airTraffic (s : State) (z : Nat) : State :=
  let x := s.air.zone z
  if x.inForce.enabled && decide (x.inForce.trafficHold ≠ 0) then
    s.withAir (airZone s (Acc.start (s.air.setZone z { x with trafficTimer := some (s.inSecs (5 * x.inForce.trafficHold)) })) z)
  else s

/-- R86: a traffic timer has run out. -/
def airTrafficEnd (s : State) (z : Nat) : State :=
  s.withAir (airZone s (Acc.start (s.air.setZone z { s.air.zone z with trafficTimer := none })) z)

/-- R86: Q[z] rises or falls by 1. -/
def airQueue (s : State) (z : Nat) (up : Bool) : State :=
  let x := s.air.zone z
  s.withAir (airZone s (Acc.start (s.air.setZone z { x with queue := if up then x.queue + 1 else x.queue - 1 })) z)

/-- R87: a hold-down timer has run out: S becomes D as it stands. -/
def airHoldDown (s : State) (z : Nat) : State :=
  let x := s.air.zone z
  s.withAir (setStage s (Acc.start (s.air.setZone z { x with holdDown := none })) z x.demand true)

/-! ### The smoke override (Section 5.7) -/

/-- R90: the override notice to the four units; Guidance's carries the stages at the passage to CLEARING (R92). -/
def sayOverride (a : AirAcc) (o : Override) : AirAcc :=
  let stages := if o = .clearing then (List.range 16).map (fun z => (a.u.zone z).stage) else []
  (((a.say (airSend .guidance (.override o stages))).say (airSend .lighting (.override o []))).say
    (airSend .fan (.override o []))).say (airSend .terminal (.override o []))

/-- The enabled zones, in zone order. -/
def enabledZones (u : Air) : List Nat := (List.range 16).filter (fun z => (u.zone z).inForce.enabled)

/-- R91: from NORMAL to ACTIVE. -/
def overrideEntry (a : AirAcc) : AirAcc :=
  let a := (a.put { a.u with override := .active }).say (.hardLocks true)
  (sayOverride a .active).say (.attend .override)

/-- R92: from ACTIVE to CLEARING. -/
def overrideClearing (s : State) (a : AirAcc) : AirAcc :=
  let a := a.each (enabledZones a.u) (fun a z =>
    setStage s (a.put (a.u.setZone z { a.u.zone z with holdDown := none })) z 4 false)
  sayOverride (a.put { a.u with override := .clearing, purgeTimer := some (s.inSecs s.cfg.params.purgePeriod) }) .clearing

/-- R93: from CLEARING back to ACTIVE; a zone whose D is below its stage starts its hold-down. -/
def overrideRelapse (s : State) (a : AirAcc) : AirAcc :=
  let a := (a.put { a.u with override := .active, purgeTimer := none }).say (.attend .override)
  (sayOverride a .active).each (enabledZones a.u) (stageRule s)

/-- R94: the end of the override. -/
def overrideEnd (s : State) (a : AirAcc) : AirAcc :=
  let a := sayOverride (a.put { a.u with override := .normal, purgeTimer := none }) .normal
  let a := a.each (enabledZones a.u) (fun a z =>
    let x := a.u.zone z
    setStage s (a.put (a.u.setZone z { x with holdDown := none })) z x.demand true)
  a.say (.hardLocks false)

/-- R90: a smoke notice. One that leaves the smoke copy as it was changes no state. -/
def airSmoke (s : State) (active : Bool) : State :=
  if s.air.smoke = active then s
  else
    let a := Acc.start { s.air with smoke := active }
    s.withAir
      (match s.air.override, active with
      | .normal, true => overrideEntry a
      | .active, false => overrideClearing s a
      | .clearing, true => overrideRelapse s a
      | .normal, false | .active, true | .clearing, false => a)

/-- R94: the purge timer has run out in CLEARING. -/
def airPurgeEnd (s : State) : State :=
  s.withAir (if s.air.override = .clearing then overrideEnd s (Acc.start s.air)
    else Acc.start { s.air with purgeTimer := none })

/-! ### Commits (R95, R96) -/

/-- R95: the air fields of a disabled zone; Q[z], Stage Since and the stage itself are kept here. -/
def clearedZone (x : AZone) : AZone :=
  { x with coLevel := 0, no2Level := 0, purge := false, co := 0, no2 := 0, gasUnknown := false, noHeads := false,
           gasDemand := 0, failDemand := 0, trafficTimer := none, trafficDemand := 0, demand := 0, holdDown := none }

/-- R95, R96: a ZONE commit at the Air Unit. -/
def airCommit (s : State) (z : Nat) (old new : ZoneRec) : State :=
  let x := s.air.zone z
  let a := Acc.start s.air
  match old.enabled, new.enabled with
  | false, false => s.withAir (a.put (s.air.setZone z { x with inForce := new }))
  | false, true =>
    let y := demandOf (gasOf s.air { clearedZone x with inForce := new })
    let a := putZone a z y
    s.withAir (setStage s a z (if a.u.override = .clearing then 4 else y.demand) true)
  | true, false => s.withAir (setStage s (putZone a z { clearedZone x with inForce := new }) z 0 true)
  | true, true =>
    let timer := if new.trafficHold = 0 then none else x.trafficTimer
    s.withAir (airZone s (a.put (s.air.setZone z { x with inForce := new, trafficTimer := timer })) z)

/-! ### The commands -/

/-- GAS_POLL_REPLY (R79). -/
def execGasPollReply (l : Fin 4) (n co no2 : Nat) (flags : Byte) (s : State) : Host.Outcome State Fault Refusal :=
  goOn (s.take (.controller l) .air (.gasPoll n co no2 flags) (fun s => airPoll s l n co no2 flags))

/-- FRESHNESS_TIMER_EXPIRY (R80). -/
def execFreshnessTimerExpiry (l : Fin 4) (n : Nat) (s : State) : Host.Outcome State Fault Refusal :=
  goOn (s.when_ (s.due (s.air.head l n).fresh) (fun s => airStale s l n))

/-- TRAFFIC (R86), from the Occupancy or the Guidance Unit. -/
def execTraffic (src : Sender) (z : Nat) (s : State) : Host.Outcome State Fault Refusal :=
  goOn (s.take src .air (.traffic z) (fun s => airTraffic s z))

/-- TRAFFIC_TIMER_EXPIRY (R86). -/
def execTrafficTimerExpiry (z : Nat) (s : State) : Host.Outcome State Fault Refusal :=
  goOn (s.when_ (s.due (s.air.zone z).trafficTimer) (fun s => airTrafficEnd s z))

/-- QUEUE_RAISED (R86). -/
def execQueueRaised (z : Nat) (s : State) : Host.Outcome State Fault Refusal :=
  goOn (s.take .guidance .air (.queueRaised z) (fun s => airQueue s z true))

/-- QUEUE_WITHDRAWN (R86). -/
def execQueueWithdrawn (z : Nat) (s : State) : Host.Outcome State Fault Refusal :=
  goOn (s.take .guidance .air (.queueWithdrawn z) (fun s => airQueue s z false))

/-- HOLD_DOWN_EXPIRY (R87). -/
def execHoldDownExpiry (z : Nat) (s : State) : Host.Outcome State Fault Refusal :=
  goOn (s.when_ (s.due (s.air.zone z).holdDown) (fun s => airHoldDown s z))

/-- SMOKE_ACTIVE (R91, R93). -/
def execSmokeActive (s : State) : Host.Outcome State Fault Refusal :=
  goOn (s.take .terminal .air (.smoke true) (fun s => airSmoke s true))

/-- SMOKE_INACTIVE (R92). -/
def execSmokeInactive (s : State) : Host.Outcome State Fault Refusal :=
  goOn (s.take .terminal .air (.smoke false) (fun s => airSmoke s false))

/-- PURGE_TIMER_EXPIRY (R94). -/
def execPurgeTimerExpiry (s : State) : Host.Outcome State Fault Refusal :=
  goOn (s.when_ (s.due s.air.purgeTimer) airPurgeEnd)

/-- ZONE_COMMIT_AIR (R95, R96). -/
def execZoneCommitAir (i : Nat) (s : State) : Host.Outcome State Fault Refusal :=
  match s.next? .capture .air with
  | some (.commit j (.zone old) (.zone new)) =>
    if j = i then goOn (airCommit (s.taken .capture .air) i old new) else goOn s
  | _ => goOn s

end Sys2Proof.Machine
end

