-- ==== Sys2Proof/Machine/Fans.lean ====
section
/-! DEFINITION. The Fan Unit (Chapter 6): groups and their wanted sets, the fan state machine, the Start Queue. -/

namespace Sys2Proof.Machine

/-- Fan `f`. -/
def Fan.fan (u : Fan) (f : Nat) : FanU := Tab.get FanU.init u.fans f

/-- Fan `f` replaced. -/
def Fan.setFan (u : Fan) (f : Nat) (x : FanU) : Fan := { u with fans := Tab.set FanU.init u.fans f x }

/-- Group `g`. -/
def Fan.group (u : Fan) (g : Nat) : GroupU := Tab.get GroupU.init u.groups g

/-- Group `g` replaced. -/
def Fan.setGroup (u : Fan) (g : Nat) (x : GroupU) : Fan := { u with groups := Tab.set GroupU.init u.groups g x }

/-- The unit at work. -/
abbrev FanAcc := Acc Fan

/-! ### Groups (Section 6.2) -/

/-- R101: a fan is available. -/
def Fan.available (u : Fan) (f : Nat) : Bool :=
  let x := u.fan f
  x.inForce.enabled && !x.inForce.isolate && decide (x.state ≠ .fault ∧ x.state ≠ .isolated) &&
    !Tab.get false u.failed (nodeKey x.inForce.loop x.inForce.node)

/-- R100: the Group Stage that the Zone Stage copies give. -/
def Fan.stageFor (u : Fan) (r : GroupRec) : Nat :=
  if r.enabled then
    (((List.range 16).filter (fun z => r.zoneSet.getLsbD z)).map (fun z => Tab.get 0 u.stages z)).foldl max 0
  else 0

/-- R100: the Lead Position raised by 1 in a duty sequence of length `m`. -/
def nextLead (lead m : Nat) : Nat := if lead + 1 < m then lead + 1 else 0

/-- R100: the group at its new stage; a passage from above 0 to 0 advances the Lead Position. -/
def Fan.evalStage (u : Fan) (x : GroupU) : GroupU :=
  let k := u.stageFor x.inForce
  { x with stage := k, lead := if 0 < x.stage ∧ k = 0 then nextLead x.lead (dutySeq x.inForce).length else x.lead }

/-- R100: the duty sequence from the Lead Position round to the entry before it. -/
def rotated (x : GroupU) : List Nat :=
  let d := dutySeq x.inForce
  d.drop x.lead ++ d.take x.lead

/-- R101: n and the group speed. -/
def Fan.demand (u : Fan) (x : GroupU) : Nat × Nat :=
  let p := x.inForce.pattern.getD x.stage (0, 0)
  let byStage := if p.2 = 0 then (0, 0) else p
  if !x.inForce.enabled then (0, 0)
  else if u.override = .active then
    if x.inForce.action = 0 then (0, 0)
    else if x.inForce.action = 1 then ((dutySeq x.inForce).length, 100)
    else byStage
  else byStage

/-- R101: the wanted set. -/
def Fan.wantedSet (u : Fan) (x : GroupU) : List Nat := ((rotated x).filter u.available).take (u.demand x).1

/-- A fan is Wanted: it belongs to the wanted set of the group that the fan-to-group map names for it (R101). -/
def Fan.wants (u : Fan) (m : Maps) (f : Nat) : Bool :=
  match m.groupOf f with
  | none => false
  | some g => decide (f ∈ u.wantedSet (u.group g))

/-- The group speed of a fan, 0 in no group (R101, R112). -/
def Fan.speedOf (u : Fan) (m : Maps) (f : Nat) : Nat :=
  match m.groupOf f with
  | none => 0
  | some g => (u.demand (u.group g)).2

/-- R102: SHORT. -/
def Fan.shortOf (u : Fan) (x : GroupU) : Bool :=
  x.inForce.enabled && decide (((dutySeq x.inForce).filter u.available).length < (u.demand x).1)

/-- R102: the Running Count. -/
def Fan.runningOf (u : Fan) (x : GroupU) : Nat :=
  if x.inForce.enabled then ((dutySeq x.inForce).filter (fun f => decide ((u.fan f).state = .running))).length else 0

/-- R99: one group's Group Stage and SHORT. -/
def evalGroup (a : FanAcc) (g : Nat) : FanAcc :=
  let x := a.u.evalStage (a.u.group g)
  let y := { x with short := a.u.shortOf x }
  (a.put (a.u.setGroup g y)).sayIf (y.short && !x.short) (.attend .groupShort)

/-! ### Fan transitions (Section 6.3) -/

/-- OUTPUT work on the node of a fan's record. -/
def fanMark (r : FanRec) : Eff := .mark r.loop r.node .output

/-- The Start Queue without fan `f`. -/
def Fan.leave (u : Fan) (f : Nat) : Fan := { u with queue := u.queue.filter (fun e => decide (e.1 ≠ f)) }

/-- R103: fan `f` joins the Start Queue with the Override mark of the moment. -/
def Fan.join (u : Fan) (f : Nat) : Fan :=
  if u.override = .normal then { u with queue := u.queue ++ [(f, false)] }
  else { u with queue := u.queue.filter (fun e => e.2) ++ (f, true) :: u.queue.filter (fun e => !e.2) }

/-- R110, R112: a fan enters FAULT, with OUTPUT work marked on its node `n` of loop `l`. -/
def fanFault (a : FanAcc) (f l n : Nat) (c : FanCause) : FanAcc :=
  let x := a.u.fan f
  let y := { x with state := .fault, cause := c, startTimer := none, stopTimer := none, command := 0 }
  ((a.put ((a.u.leave f).setFan f y)).say (.mark l n .output)).say (.attend .fanFault)

/-- R105, R106, R109, R113: a fan goes to STOPPING. -/
def fanStop (s : State) (a : FanAcc) (f : Nat) : FanAcc :=
  let x := a.u.fan f
  let y := { x with state := .stopping, command := 0, startTimer := none,
                    stopTimer := some (s.inSecs s.cfg.params.stopTimeout) }
  (a.put ((a.u.leave f).setFan f y)).say (fanMark x.inForce)

/-- R105, R109: a fan goes to RUNNING; `started` when it has been STARTING. -/
def fanRun (m : Maps) (a : FanAcc) (f : Nat) (started : Bool) : FanAcc :=
  let x := a.u.fan f
  a.put ((a.u.leave f).setFan f
    { x with state := .running, command := a.u.speedOf m f, notRunning := 0, startTimer := none,
             starts := if started then x.starts + 1 else x.starts })

/-- R107: a fan that has stopped. -/
def fanStopped (a : FanAcc) (f : Nat) : FanAcc :=
  let x := a.u.fan f
  a.put (a.u.setFan f { x with state := if x.inForce.isolate then .isolated else .stopped, stopTimer := none })

/-- An observation of Feedback at a fan (R105 to R109). -/
def fanObserve (s : State) (a : FanAcc) (f : Nat) (running : Bool) : FanAcc :=
  match (a.u.fan f).state, running with
  | .starting, true => fanRun s.maps a f true
  | .queued, true => fanRun s.maps a f false
  | .stopped, true => if a.u.wants s.maps f then fanRun s.maps a f false else fanStop s a f
  | .stopping, false => fanStopped a f
  | .starting, false | .queued, false | .stopped, false | .stopping, true | .running, _ | .fault, _ | .isolated, _ => a

/-- R103, R105, R106: a fan's transitions by its Wanted and its group speed. -/
def fanWanted (s : State) (a : FanAcc) (f : Nat) : FanAcc :=
  let w := a.u.wants s.maps f
  let x := { a.u.fan f with wanted := w }
  let a := a.put (a.u.setFan f x)
  match x.state with
  | .stopped => if w then a.put ((a.u.setFan f { x with state := .queued }).join f) else a
  | .queued => if w then a else a.put ((a.u.leave f).setFan f { x with state := .stopped })
  | .starting | .running =>
    if !w then fanStop s a f
    else
      let v := a.u.speedOf s.maps f
      if v = x.command then a else (a.put (a.u.setFan f { x with command := v })).say (fanMark x.inForce)
  | .stopping | .fault | .isolated => a

/-- R104: the head test of the Start Queue. -/
def headTest (s : State) (a : FanAcc) : FanAcc :=
  match a.u.queue with
  | [] => a
  | (f, _) :: q =>
    if a.u.interval.isNone && a.u.fans.all (fun e => decide (e.2.state ≠ .starting)) then
      let x := a.u.fan f
      let y := { x with state := .starting, command := a.u.speedOf s.maps f,
                        startTimer := some (s.inSecs s.cfg.params.startTimeout) }
      (a.put ({ a.u with queue := q, interval := some (s.inSecs s.cfg.params.startInterval) }.setFan f y)).say
        (fanMark x.inForce)
    else a

/-- The part-owned fields of a fan differ. -/
def fanFieldsDiffer (x y : FanU) : Bool :=
  decide (x.state ≠ y.state ∨ x.command ≠ y.command ∨ x.reported ≠ y.reported ∨ x.runSeconds ≠ y.runSeconds ∨
    x.starts ≠ y.starts ∨ x.cause ≠ y.cause)

/-- The part-owned fields of a group differ. -/
def groupFieldsDiffer (x y : GroupU) : Bool :=
  decide (x.stage ≠ y.stage ∨ x.running ≠ y.running ∨ x.lead ≠ y.lead ∨ x.short ≠ y.short)

/-- R99: what follows the change an event names: groups in group order, an observation and the fans' transitions in fan
order, the head test, Running Counts, and the changed records on the Reflect List. `before` is the unit at the event's
start. -/
def fanEnd (s : State) (before : Fan) (a : FanAcc) (seen : Option (Nat × Bool)) : FanAcc :=
  let a := a.each (Tab.keys a.u.groups) evalGroup
  let a := a.each (Tab.keys a.u.fans) (fun a f =>
    let a := match seen with
      | none => a
      | some (g, running) => if g = f then fanObserve s a f running else a
    fanWanted s a f)
  let a := headTest s a
  let a := a.each (Tab.keys a.u.groups) (fun a g =>
    let x := a.u.group g
    a.put (a.u.setGroup g { x with running := a.u.runningOf x }))
  let a := a.each (List.range 48) (fun a f =>
    a.sayIf (fanFieldsDiffer (before.fan f) (a.u.fan f)) (.reflect (.record .fan f)))
  a.each (List.range 12) (fun a g =>
    a.sayIf (groupFieldsDiffer (before.group g) (a.u.group g)) (.reflect (.record .group g)))

/-- The unit's event put into the part. -/
def State.withFan (s : State) (a : FanAcc) (seen : Option (Nat × Bool)) : State :=
  let a := fanEnd s s.fan a seen
  State.emit { s with fan := a.u } a.out

/-! ### Events -/

/-- R100: a stage notice. -/
def fanStage (s : State) (z k : Nat) : State :=
  s.withFan (Acc.start { s.fan with stages := Tab.set 0 s.fan.stages z k }) none

/-- R101, R103: an override notice. -/
def fanOverride (s : State) (o : Override) : State :=
  let q := if o = .normal then s.fan.queue.map (fun e => (e.1, false)) else s.fan.queue
  s.withFan (Acc.start { s.fan with override := o, queue := q }) none

/-- R106, R110: the faults that a DONE POLL reply makes: the drive fault flag first (log 31), then a run that is lost at the
second poll in a row that finds it not running. The node is the one polled (log 4). -/
def pollFaults (a : FanAcc) (f l n : Nat) (driveFault running : Bool) : FanAcc :=
  let x := a.u.fan f
  if driveFault && decide (x.state = .stopped ∨ x.state = .queued ∨ x.state = .starting ∨ x.state = .running) then
    fanFault a f l n .driveFault
  else if x.state = .running then
    if running then a.put (a.u.setFan f { x with notRunning := 0 })
    else if x.notRunning = 0 then a.put (a.u.setFan f { x with notRunning := 1 })
    else fanFault a f l n .runLost
  else a

/-- R108: a DONE POLL reply of a FAN node, at the fan that the fan node map names; it is an observation of an enabled fan
alone, so one whose record the unit has not taken yet takes nothing (log 4). -/
def fanPoll (s : State) (l n : Nat) (flags : Byte) (speed : Nat) : State :=
  match s.maps.fanAt l n with
  | none => s.withFan (Acc.start s.fan) none
  | some f =>
    let x := s.fan.fan f
    if !x.inForce.enabled then s.withFan (Acc.start s.fan) none
    else
    let running := match x.termFb with
      | none => flags.getLsbD 0
      | some p => p.2
    let y := { x with reported := speed, feedback := if running then .running else .stopped }
    s.withFan (pollFaults (Acc.start (s.fan.setFan f y)) f l n (flags.getLsbD 1) running) (some (f, running))

/-- R112: a SET completion changes no fan state. -/
def fanSetDone (s : State) : State := s.withFan (Acc.start s.fan) none

/-- R106, R108: at a notice of the fan's node the Not-running Count becomes 0 when the node has failed or ceased to be usable,
and Feedback becomes unknown when it has ceased to be usable (`lost`). -/
def fanUnseen (a : FanAcc) (f : Nat) (failed lost : Bool) : FanAcc :=
  let x := a.u.fan f
  a.put (a.u.setFan f { x with feedback := if lost then .unknown else x.feedback,
                               notRunning := if failed || lost then 0 else x.notRunning })

/-- R110: a node notice of a FAN node: the fan that the fan node map names on it faults, with OUTPUT work on that node, also
one whose record the unit has not taken yet (log 4). -/
def fanNotice (s : State) (l n : Nat) (old new : NodeState) : State :=
  let a := Acc.start s.fan
  let failed := decide (new = .failed)
  let a :=
    if failed || decide (old = .failed) then
      a.put { a.u with failed := Tab.set false a.u.failed (nodeKey l n) failed }
    else a
  let a :=
    match s.maps.fanAt l n with
    | none => a
    | some f =>
      let a := fanUnseen a f failed (nodeUsable old && !nodeUsable new)
      if failed && decide ((a.u.fan f).state ≠ .isolated ∧ (a.u.fan f).state ≠ .fault) then fanFault a f l n .nodeFailed
      else a
  s.withFan a none

/-- R108, R122: a feedback notice of terminal `t`. One that the terminal has ceased to carry the function makes Terminal
Feedback absent unless another terminal has taken it since. -/
def fanFeedback (s : State) (f t : Nat) (level : Option Bool) : State :=
  let x := s.fan.fan f
  match level with
  | none =>
    let fb := match x.termFb with
      | none => none
      | some p => if p.1 = t then none else some p
    s.withFan (Acc.start (s.fan.setFan f { x with termFb := fb })) none
  | some on =>
    if x.inForce.enabled then
      let y := { x with termFb := some (t, on), feedback := if on then .running else .stopped }
      s.withFan (Acc.start (s.fan.setFan f y)) (some (f, on))
    else s.withFan (Acc.start (s.fan.setFan f { x with termFb := some (t, on) })) none

/-- R105, R107: a start or stop timer has run out: the fan faults, with OUTPUT work on the node of its record in force. -/
def fanTimeout (s : State) (f : Nat) (c : FanCause) : State :=
  let r := (s.fan.fan f).inForce
  s.withFan (fanFault (Acc.start s.fan) f r.loop r.node c) none

/-- R105: a start timer has run out. -/
def fanStartOut (s : State) (f : Nat) : State := fanTimeout s f .startTimeout

/-- R107: a stop timer has run out. -/
def fanStopOut (s : State) (f : Nat) : State := fanTimeout s f .stopTimeout

/-- R104: the start interval timer has run out. -/
def fanIntervalOut (s : State) : State := s.withFan (Acc.start { s.fan with interval := none }) none

/-- R112: the Run Seconds of a RUNNING fan at an advance of the Section Time. -/
def runSecond (u : Fan) (f : Nat) : Fan :=
  let x := u.fan f
  if x.state = .running then u.setFan f { x with runSeconds := satInc x.runSeconds 1 } else u

/-- R112: an advance of the Section Time. -/
def fanSecond (s : State) : State := s.withFan (Acc.start ((List.range 48).foldl runSecond s.fan)) none

/-- R111: FAN_CLEAR at a fan in FAULT. -/
def fanClear (s : State) (f : Nat) : State :=
  let x := s.fan.fan f
  s.withFan (Acc.start (s.fan.setFan f { x with state := if x.inForce.isolate then .isolated else .stopped })) none

/-! ### Commits (Section 6.7) -/

/-- R113, R112: a fan enabled by its new record: no timer of it runs and its Commanded Speed is 0. -/
def fanEnabled (x : FanU) (new : FanRec) : FanU :=
  { x with inForce := new, state := if new.isolate then .isolated else .stopped, feedback := .unknown, notRunning := 0,
           startTimer := none, stopTimer := none, command := 0 }

/-- R113: a fan disabled on its old node, with OUTPUT work there. -/
def fanDisabled (a : FanAcc) (f : Nat) (new : FanRec) : FanAcc :=
  let x := a.u.fan f
  let y := { x with inForce := new, state := .stopped, startTimer := none, stopTimer := none, command := 0, wanted := false }
  (a.put ((a.u.leave f).setFan f y)).say (fanMark x.inForce)

/-- R113: Isolate set from clear. -/
def fanIsolate (s : State) (a : FanAcc) (f : Nat) : FanAcc :=
  let x := a.u.fan f
  match x.state with
  | .starting | .running => fanStop s a f
  | .stopped | .queued | .fault => a.put ((a.u.leave f).setFan f { x with state := .isolated })
  | .stopping | .isolated => a

/-- R113: a FAN commit. -/
def fanCommit (s : State) (f : Nat) (old new : FanRec) : State :=
  let a := Acc.start s.fan
  let x := s.fan.fan f
  let kept := a.put (s.fan.setFan f { x with inForce := new })
  let a :=
    match old.enabled, new.enabled with
    | false, false => kept
    | false, true => a.put ((s.fan.leave f).setFan f (fanEnabled x new))
    | true, false => fanDisabled a f new
    | true, true =>
      if old.loop ≠ new.loop ∨ old.node ≠ new.node then
        let a := fanDisabled a f new
        a.put (a.u.setFan f (fanEnabled (a.u.fan f) new))
      else if !old.isolate && new.isolate then fanIsolate s kept f
      else if old.isolate && !new.isolate && decide (x.state = .isolated) then
        a.put (s.fan.setFan f { x with inForce := new, state := .stopped, feedback := .unknown })
      else kept
  s.withFan a none

/-- R114: a GROUP commit. -/
def groupCommit (s : State) (g : Nat) (old new : GroupRec) : State :=
  let x := s.fan.group g
  let y := { x with inForce := new }
  let y :=
    match old.enabled, new.enabled with
    | false, false => y
    | false, true => { y with lead := 0 }
    | true, false => { y with stage := 0, lead := 0, short := false }
    | true, true =>
      let z := s.fan.evalStage y
      if dutySeq old = dutySeq new then z else { z with lead := 0 }
  s.withFan (Acc.start (s.fan.setGroup g y)) none

/-! ### Work built for the Loop Scheduler -/

/-- R112: the speed of the SET built for a FAN node: that of the fan that the fan node map names, or 0 when it names none. -/
def Fan.setSpeed (u : Fan) (m : Maps) (l n : Nat) : Nat :=
  match m.fanAt l n with
  | none => 0
  | some f => (u.fan f).command

/-! ### The commands -/

/-- FAN_POLL_REPLY (R108). -/
def execFanPollReply (l : Fin 4) (n : Nat) (flags : Byte) (speed : Nat) (s : State) : Host.Outcome State Fault Refusal :=
  goOn (s.take (.controller l) .fan (.fanPoll n flags speed) (fun s => fanPoll s l n flags speed))

/-- FAN_SET_COMPLETION (R112). -/
def execFanSetCompletion (l : Fin 4) (n : Nat) (status : Byte) (s : State) : Host.Outcome State Fault Refusal :=
  goOn (s.take (.controller l) .fan (.fanSet n status) fanSetDone)

/-- FEEDBACK_NOTICE (R108). -/
def execFeedbackNotice (f : Nat) (t : Fin 16) (level : Option Bool) (s : State) : Host.Outcome State Fault Refusal :=
  goOn (s.take .terminal .fan (.feedback f t level) (fun s => fanFeedback s f t level))

/-- START_TIMER_EXPIRY (R105). -/
def execStartTimerExpiry (f : Nat) (s : State) : Host.Outcome State Fault Refusal :=
  goOn (s.when_ (s.due (s.fan.fan f).startTimer) (fun s => fanStartOut s f))

/-- STOP_TIMER_EXPIRY (R107). -/
def execStopTimerExpiry (f : Nat) (s : State) : Host.Outcome State Fault Refusal :=
  goOn (s.when_ (s.due (s.fan.fan f).stopTimer) (fun s => fanStopOut s f))

/-- START_INTERVAL_EXPIRY (R104). -/
def execStartIntervalExpiry (s : State) : Host.Outcome State Fault Refusal :=
  goOn (s.when_ (s.due s.fan.interval) fanIntervalOut)

/-- FAN_COMMIT (R113). -/
def execFanCommit (f : Nat) (s : State) : Host.Outcome State Fault Refusal :=
  match s.next? .capture .fan with
  | some (.commit j (.fan old) (.fan new)) =>
    if j = f then goOn (fanCommit (s.taken .capture .fan) f old new) else goOn s
  | _ => goOn s

/-- GROUP_COMMIT (R114). -/
def execGroupCommit (i : Nat) (s : State) : Host.Outcome State Fault Refusal :=
  match s.next? .capture .fan with
  | some (.commit j (.group old) (.group new)) =>
    if j = i then goOn (groupCommit (s.taken .capture .fan) i old new) else goOn s
  | _ => goOn s

end Sys2Proof.Machine
end

