-- ==== Sys2Proof/Machine/Guidance.lean ====
section
/-! DEFINITION. The Guidance Unit (Chapter 3): closure and Guidance States, gates and entries, the Hold List, signs. -/

namespace Sys2Proof.Machine

/-- Zone `z`. -/
def Guid.zone (u : Guid) (z : Nat) : GZone := Tab.get GZone.init u.zones z

/-- Zone `z` replaced. -/
def Guid.setZone (u : Guid) (z : Nat) (x : GZone) : Guid := { u with zones := Tab.set GZone.init u.zones z x }

/-- Gate `g`. -/
def Guid.gate (u : Guid) (g : Nat) : GGate := Tab.get GGate.init u.gates g

/-- Gate `g` replaced. -/
def Guid.setGate (u : Guid) (g : Nat) (x : GGate) : Guid := { u with gates := Tab.set GGate.init u.gates g x }

/-- Sign `i`. -/
def Guid.sign (u : Guid) (i : Nat) : GSign := Tab.get GSign.init u.signs i

/-- Sign `i` replaced. -/
def Guid.setSign (u : Guid) (i : Nat) (x : GSign) : Guid := { u with signs := Tab.set GSign.init u.signs i x }

/-- The unit's state of SIGN node `n` of loop `l`. -/
def Guid.node (u : Guid) (l n : Nat) : GNode := Tab.get GNode.init u.nodes (nodeKey l n)

/-- That state replaced. -/
def Guid.setNode (u : Guid) (l n : Nat) (x : GNode) : Guid := { u with nodes := Tab.set GNode.init u.nodes (nodeKey l n) x }

/-- The signs that the records in force at the unit enable on a SIGN node. -/
def Guid.signsOn (u : Guid) (l n : Nat) : List Nat :=
  (Tab.keys u.signs).filter (fun i =>
    let r := (u.sign i).inForce
    r.enabled && decide (r.loop = l ∧ r.node = n))

/-- The unit at work. -/
abbrev GuidAcc := Acc Guid

/-- A message of the unit. -/
def guidSend (dst : UnitId) (b : Body) : Eff := .send { src := .guidance, dst := dst, body := b }

/-! ### Zones (Section 3.2) -/

/-- R42: A[z], the free GENERAL bays less the holds, never below 0. -/
def GZone.available (x : GZone) : Nat := x.general - x.holds

/-- The free copy G[z][c]. -/
def GZone.free (x : GZone) (c : Nat) : Nat := if c = 0 then x.general else if c = 1 then x.accessible else x.charging

/-- The free copy G[z][c] replaced (R42). -/
def GZone.setFree (x : GZone) (c v : Nat) : GZone :=
  if c = 0 then { x with general := v } else if c = 1 then { x with accessible := v } else { x with charging := v }

/-- Some Closure Reason is set. -/
def Reasons.any (r : Reasons) : Bool := r.host || r.air || r.override || r.fault || r.disabled

/-- R45: the Guidance State that a zone's reasons and counts give. -/
def GZone.state (x : GZone) : GState := if x.reasons.any then .closed else if x.available = 0 then .full else .opened

/-- The place of the oldest hold whose Zone is `z`. -/
def oldestOf (hs : List Hold) (z : Nat) : Option Nat := hs.findIdx? (fun h => decide (h.zone = z))

/-- The place of the newest hold whose Zone is `z`. -/
def newestOf (hs : List Hold) (z : Nat) : Option Nat :=
  ((List.range hs.length).filter (fun k => match hs[k]? with | none => false | some h => decide (h.zone = z))).getLast?

/-- R50: the hold at place `k` leaves the list, H of its zone falls and its route counts are lowered. -/
def removeHold (a : GuidAcc) (k : Nat) : GuidAcc :=
  match a.u.holds[k]? with
  | none => a
  | some h =>
    let x := a.u.zone h.zone
    let a := a.put ({ a.u with holds := a.u.holds.eraseIdx k }.setZone h.zone { x with holds := x.holds - 1 })
    let a := a.say (.reflect (.record .zone h.zone))
    a.each h.route (fun a ch => a.say (guidSend .lighting (.routeLowered ch)))

/-- R45: every hold of a zone that has become CLOSED ends, oldest first. -/
def cancelClosed : Nat → GuidAcc → Nat → GuidAcc
  | 0, a, _ => a
  | k + 1, a, z =>
    match oldestOf a.u.holds z with
    | none => a
    | some p => cancelClosed k (removeHold a p) z

/-- R45: evaluates the Guidance State of a zone. -/
def evalZone (a : GuidAcc) (z : Nat) : GuidAcc :=
  let x := a.u.zone z
  let st := x.state
  if st = x.gstate then a
  else
    let a := (a.put (a.u.setZone z { x with gstate := st })).say (.reflect (.record .zone z))
    if st = .closed then cancelClosed a.u.holds.length a z else a

/-- R50: a hold ends for a cause other than its zone becoming CLOSED. -/
def endHold (a : GuidAcc) (k : Nat) : GuidAcc :=
  match a.u.holds[k]? with
  | none => a
  | some h => evalZone (removeHold a k) h.zone

/-- The reasons of a zone replaced; a change is reflected and the zone evaluated (R43). -/
def setReasons (a : GuidAcc) (z : Nat) (r : Reasons) : GuidAcc :=
  let x := a.u.zone z
  if r = x.reasons then a
  else evalZone ((a.put (a.u.setZone z { x with reasons := r })).say (.reflect (.record .zone z))) z

/-- R53: while H exceeds the free GENERAL bays the newest hold of the zone ends. -/
def cancelShort : Nat → GuidAcc → Nat → GuidAcc
  | 0, a, _ => a
  | k + 1, a, z =>
    if (a.u.zone z).general < (a.u.zone z).holds then
      match newestOf a.u.holds z with
      | none => a
      | some p => cancelShort k (endHold a p) z
    else a

/-! ### Signs (Section 3.5) -/

/-- The zones of a mask. -/
def maskZones (m : BitVec 16) : List Nat := (List.range 16).filter (fun z => m.getLsbD z)

/-- R56: the computed content of one line of an AUTO sign. -/
def lineContent (u : Guid) (x : SignLine) : Shown :=
  let zs := maskZones x.mask
  if zs = [] then Shown.blank
  else if zs.all (fun z => decide ((u.zone z).gstate = .closed)) then { value := 0, arrow := x.arrow, text := 2 }
  else
    let sum := (zs.map (fun z => if x.cls = 0 then (u.zone z).available else (u.zone z).free x.cls)).sum
    if sum = 0 then { value := 0, arrow := x.arrow, text := 1 } else { value := sum, arrow := x.arrow, text := 0 }

/-- R56: the computed content of a sign in AUTO or BLANK mode. -/
def signContent (u : Guid) (r : SignRec) : List Shown :=
  if r.mode = 0 then r.lines.map (lineContent u) else r.lines.map (fun _ => Shown.blank)

/-- The sign is enabled and in AUTO or BLANK mode: the part sends its content (R58). -/
def SignRec.auto (r : SignRec) : Bool := r.enabled && decide (r.mode = 0 ∨ r.mode = 2)

/-- R57: the Sign Status. -/
def signStatus (u : Guid) (g : GSign) : SignStatus :=
  let nd := u.node g.inForce.loop g.inForce.node
  if !g.inForce.enabled then .ok
  else if !nd.usable || nd.fault then .failed
  else if g.inForce.auto then (if g.valid && decide (g.shown = signContent u g.inForce) then .ok else .pending)
  else .ok

/-- R57: evaluates a Sign Status; a change places the record on the Reflect List. -/
def evalStatus (a : GuidAcc) (i : Nat) : GuidAcc :=
  let g := a.u.sign i
  let st := signStatus a.u g
  if st = g.status then a else (a.put (a.u.setSign i { g with status := st })).say (.reflect (.record .sign i))

/-- R58: the test that marks SHOW work on the sign's node. -/
def showTest (a : GuidAcc) (i : Nat) : GuidAcc :=
  let g := a.u.sign i
  a.sayIf (g.inForce.auto && (!g.valid || decide (g.shown ≠ signContent a.u g.inForce)) && g.refresh.isNone)
    (.mark g.inForce.loop g.inForce.node .show)

/-! ### Gates (Section 3.3) -/

/-- A preference entry that the next entry would take (R46, R47). -/
def targetOk (u : Guid) (margin z : Nat) : Bool :=
  decide (z ≠ 255) && decide ((u.zone z).gstate = .opened) && decide (margin < (u.zone z).available)

/-- R46: the FULL flag. -/
def gateFull (u : Guid) (r : GateRec) : Bool := r.enabled && !r.pref.any (targetOk u r.margin)

/-- R46: evaluates a gate's FULL flag; a change is reflected and noticed. -/
def evalGate (a : GuidAcc) (g : Nat) : GuidAcc :=
  let x := a.u.gate g
  let f := gateFull a.u x.inForce
  if f = x.full then a
  else ((a.put (a.u.setGate g { x with full := f })).say (.reflect (.record .gate g))).say
    (guidSend .terminal (.gateFull g f))

/-- R45, R57, R58: the end of an event: each gate's FULL flag, then each Sign Status, then the SHOW test of each sign, by
index (log 50). -/
def guidEnd (a : GuidAcc) : GuidAcc :=
  let a := a.each (List.range 8) evalGate
  let a := a.each (Tab.keys a.u.signs) evalStatus
  a.each (Tab.keys a.u.signs) showTest

/-- The unit's event put into the part. -/
def State.withGuid (s : State) (a : GuidAcc) : State :=
  let a := guidEnd a
  State.emit { s with guid := a.u } a.out

/-! ### Notices of the Occupancy and Air Units -/

/-- R42, R53: FREE lost. -/
def guidFreeLost (s : State) (z c count : Nat) : State :=
  let a := Acc.start (s.guid.setZone z ((s.guid.zone z).setFree c count))
  let a := if c = 0 then cancelShort a.u.holds.length a z else a
  s.withGuid (evalZone a z)

/-- R42: FREE gained. -/
def guidFreeGained (s : State) (z c count : Nat) : State :=
  s.withGuid (evalZone (Acc.start (s.guid.setZone z ((s.guid.zone z).setFree c count))) z)

/-- R51: the oldest hold of the zone ends ARRIVED. -/
def guidArrived (s : State) (z : Nat) : State :=
  let a := Acc.start s.guid
  s.withGuid (match oldestOf s.guid.holds z with | none => a | some k => endHold a k)

/-- R43: the FAULT reason. -/
def guidFault (s : State) (z : Nat) (on : Bool) : State :=
  s.withGuid (setReasons (Acc.start s.guid) z { (s.guid.zone z).reasons with fault := on })

/-- R43: a stage notice sets AIR at stage 4 and clears it below. -/
def guidStage (s : State) (z k : Nat) : State :=
  s.withGuid (setReasons (Acc.start s.guid) z { (s.guid.zone z).reasons with air := decide (k = 4) })

/-- R44: an override notice, zone by zone in index order (log 50). The notice of CLEARING carries the Applied Stages, taken
into AIR in the same event. -/
def guidOverride (s : State) (o : Override) (stages : List Nat) : State :=
  let a := (Acc.start s.guid).each (List.range (s.count .zone)) (fun a z =>
    let r := (a.u.zone z).reasons
    let r := { r with override := decide (o = .active) }
    let r := if o = .clearing then { r with air := decide (stages.getD z 0 = 4) } else r
    setReasons a z r)
  s.withGuid a

/-! ### Entries, exits and queues -/

/-- R47: the lowest preference position whose zone can be the target. -/
def findTarget (u : Guid) (r : GateRec) : Option Nat := r.pref.findIdx? (targetOk u r.margin)

/-- R48: the route of a position: entries of 255 left out, each channel at its first appearance alone. -/
def routeOf (js : List Nat) : List Nat :=
  js.foldl (fun acc ch => if ch = 255 ∨ ch ∈ acc then acc else acc ++ [ch]) []

/-- R48: a hold created at gate `g` for preference position `p`. -/
def createHold (s : State) (a : GuidAcc) (g p : Nat) : GuidAcc :=
  let r := (a.u.gate g).inForce
  let z := r.pref.getD p 255
  let h : Hold :=
    { id := a.u.nextId, gate := g, zone := z, position := p, route := routeOf (r.routes.getD p []), created := s.time,
      expiry := s.secs + r.expiry }
  let x := a.u.zone z
  let a := a.put ({ a.u with holds := a.u.holds ++ [h], nextId := a.u.nextId + 1 }.setZone z { x with holds := x.holds + 1 })
  let a := a.say (.reflect (.record .zone z))
  evalZone (a.each h.route (fun a ch => a.say (guidSend .lighting (.routeRaised ch)))) z

/-- R47: an entry event at gate `g`. The GATE record joins the Reflect List before the target's ZONE record (log 59). -/
def guidEntry (s : State) (g : Nat) : State :=
  let x := s.guid.gate g
  if !x.inForce.enabled then s
  else
    let a := Acc.start (s.guid.setGate g { x with entries := x.entries + 1 })
    let a := (a.say (guidSend .air (.traffic x.inForce.zone))).say (.reflect (.record .gate g))
    let unguided (a : GuidAcc) : GuidAcc :=
      let y := a.u.gate g
      (a.put (a.u.setGate g { y with unguided := y.unguided + 1, lastTarget := 255 })).say (.attend .unguided)
    let a :=
      match findTarget a.u x.inForce with
      | some p =>
        if a.u.holds.length < 64 then
          let a := createHold s a g p
          a.put (a.u.setGate g { a.u.gate g with lastTarget := x.inForce.pref.getD p 255 })
        else unguided a
      | none => unguided a
    s.withGuid a

/-- R49: an exit event at gate `g`. -/
def guidExit (s : State) (g : Nat) : State :=
  let x := s.guid.gate g
  if !x.inForce.enabled then s
  else
    let a := Acc.start (s.guid.setGate g { x with exits := x.exits + 1 })
    s.withGuid ((a.say (guidSend .air (.traffic x.inForce.zone))).say (.reflect (.record .gate g)))

/-- The notice to Air that a gate's QUEUE has been set or cleared in a zone (R49, R63). -/
def queueNotice (z : Nat) (raised : Bool) : Eff := guidSend .air (if raised then .queueRaised z else .queueWithdrawn z)

/-- R49: a queue notice of the Terminal Block for gate `g`. -/
def guidGateQueue (s : State) (g : Nat) (raised : Bool) : State :=
  let x := s.guid.gate g
  if !x.inForce.enabled then s
  else
    let a := (Acc.start (s.guid.setGate g { x with queue := raised })).say (.reflect (.record .gate g))
    s.withGuid (a.sayIf (decide (raised ≠ x.queue)) (queueNotice x.inForce.zone raised))

/-- R52: the Expiry of the hold at place `k` has been reached. -/
def guidExpire (s : State) (k : Nat) : State := s.withGuid (endHold (Acc.start s.guid) k)

/-- R54: every hold of zone `z`, oldest first. -/
def clearZone : Nat → GuidAcc → Nat → GuidAcc
  | 0, a, _ => a
  | k + 1, a, z =>
    match oldestOf a.u.holds z with
    | none => a
    | some p => clearZone k (endHold a p) z

/-- R54: every hold of the list, oldest first. -/
def clearAll : Nat → GuidAcc → GuidAcc
  | 0, a => a
  | k + 1, a => if a.u.holds = [] then a else clearAll k (endHold a 0)

/-- R54: the effect of HOLDS_CLEAR on the Hold List. -/
def guidHoldsClear (s : State) (z : Nat) : State :=
  let a := Acc.start s.guid
  s.withGuid (if z = 255 then clearAll a.u.holds.length a else clearZone a.u.holds.length a z)

/-! ### Sign nodes -/

/-- R58: the refresh timer of sign `i` has run out. -/
def guidRefresh (s : State) (i : Nat) : State :=
  let g := s.guid.sign i
  s.withGuid (Acc.start (s.guid.setSign i { g with refresh := none }))

/-- The lines that 16 bytes of a SHOW spell (Table 8.2). -/
def shownOf (bs : List Byte) : List Shown :=
  (List.range 4).map (fun l => { value := num16 bs (4 * l), arrow := num8 bs (4 * l + 2), text := num8 bs (4 * l + 3) })

/-- The 16 bytes of a SHOW of these lines (R58). -/
def showBytes (ls : List Shown) : List Byte :=
  ls.flatMap (fun x => bytesOfNat 2 x.value ++ [BitVec.ofNat 8 x.arrow, BitVec.ofNat 8 x.text])

/-- R59: a SHOW completion at the sign that the sign node map names; NODE_BUSY and OUT_OF_STEP never reach the unit (R129). -/
def guidShow (s : State) (l n : Nat) (status : Byte) (content : List Byte) : State :=
  let expiry := some (s.inSecs s.cfg.params.signInterval)
  let a := Acc.start s.guid
  s.withGuid
    (match s.maps.signAt l n with
     | none => a
     | some i =>
       let g := a.u.sign i
       if status = 0 then
         (a.put (a.u.setSign i { g with shown := shownOf content, valid := true, lastShow := s.time, refresh := expiry })).say
           (.reflect (.record .sign i))
       else a.put (a.u.setSign i { g with refresh := expiry }))

/-- The Shown Valid of every enabled sign on a node becomes false (R60, R61). -/
def dropValid (a : GuidAcc) (l n : Nat) : GuidAcc :=
  a.each (a.u.signsOn l n) (fun a i => a.put (a.u.setSign i { a.u.sign i with valid := false }))

/-- R61: the display fault flag of a DONE POLL reply. -/
def guidSignPoll (s : State) (l n : Nat) (flags : Byte) : State :=
  let nd := s.guid.node l n
  let f := flags.getLsbD 0
  let a := Acc.start (s.guid.setNode l n { nd with fault := f })
  s.withGuid (if nd.fault && !f then dropValid a l n else a)

/-- R60: a node notice of a SIGN node. -/
def guidNotice (s : State) (l n : Nat) (old new : NodeState) : State :=
  if nodeUsable old && !nodeUsable new then
    s.withGuid (dropValid (Acc.start (s.guid.setNode l n { usable := false, fault := false })) l n)
  else if !nodeUsable old && nodeUsable new then
    s.withGuid (Acc.start (s.guid.setNode l n { s.guid.node l n with usable := true }))
  else s.withGuid (Acc.start s.guid)

/-! ### Commits (R43, R62, R63) -/

/-- R43: a ZONE commit at the Guidance Unit. A commit of unchanged content changes nothing (Section 3.6). -/
def guidZoneCommit (s : State) (i : Nat) (old new : ZoneRec) : State :=
  if old = new then s
  else
  let a := Acc.start (s.guid.setZone i { s.guid.zone i with inForce := new })
  let r := { (s.guid.zone i).reasons with disabled := !new.enabled, host := new.enabled && new.closed }
  s.withGuid (setReasons a i r)

/-- R63: a GATE commit. A commit of unchanged content changes nothing. -/
def guidGateCommit (s : State) (i : Nat) (old new : GateRec) : State :=
  if old = new then s
  else
  let x := s.guid.gate i
  let a := Acc.start (s.guid.setGate i { x with inForce := new })
  let a :=
    if old.enabled && !new.enabled && x.queue then
      ((a.put (a.u.setGate i { a.u.gate i with queue := false })).say (.reflect (.record .gate i))).say
        (queueNotice old.zone false)
    else if old.enabled && new.enabled && x.queue && decide (old.zone ≠ new.zone) then
      (a.say (queueNotice old.zone false)).say (queueNotice new.zone true)
    else a
  s.withGuid a

/-- R62: a SIGN commit. A commit of unchanged content changes nothing; one from disabled to enabled sets Shown Valid false,
whether or not the disabled record named the same node (log 51). A mark is withdrawn as the work of the sign that the old record
has enabled; one that the controller has set again since a commit that disabled the sign stays (log 61). -/
def guidSignCommit (s : State) (i : Nat) (old new : SignRec) : State :=
  if old = new then s
  else
    let g := s.guid.sign i
    let moved := decide (old.loop ≠ new.loop ∨ old.node ≠ new.node)
    let g := { g with inForce := new, valid := if new.enabled && (!old.enabled || moved) then false else g.valid }
    let a := Acc.start (s.guid.setSign i g)
    let a := a.sayIf (old.enabled && (moved || !new.auto)) (.unmark old.loop old.node .show)
    s.withGuid a

/-! ### The commands -/

/-- FREE_LOST (R53). -/
def execFreeLost (z c count : Nat) (s : State) : Host.Outcome State Fault Refusal :=
  goOn (s.take .occupancy .guidance (.freeLost z c count) (fun s => guidFreeLost s z c count))

/-- FREE_GAINED (R42). -/
def execFreeGained (z c count : Nat) (s : State) : Host.Outcome State Fault Refusal :=
  goOn (s.take .occupancy .guidance (.freeGained z c count) (fun s => guidFreeGained s z c count))

/-- OCCUPIED_ACCEPTED (R51). -/
def execOccupiedAccepted (z : Nat) (s : State) : Host.Outcome State Fault Refusal :=
  goOn (s.take .occupancy .guidance (.occupiedAccepted z) (fun s => guidArrived s z))

/-- FAULT_ASSERTED (R43). -/
def execFaultAsserted (z : Nat) (s : State) : Host.Outcome State Fault Refusal :=
  goOn (s.take .occupancy .guidance (.faultAsserted z) (fun s => guidFault s z true))

/-- FAULT_WITHDRAWN (R43). -/
def execFaultWithdrawn (z : Nat) (s : State) : Host.Outcome State Fault Refusal :=
  goOn (s.take .occupancy .guidance (.faultWithdrawn z) (fun s => guidFault s z false))

/-- ENTRY_EVENT (R47). -/
def execEntryEvent (g : Nat) (s : State) : Host.Outcome State Fault Refusal :=
  goOn (s.take .terminal .guidance (.entry g) (fun s => guidEntry s g))

/-- EXIT_EVENT (R49). -/
def execExitEvent (g : Nat) (s : State) : Host.Outcome State Fault Refusal :=
  goOn (s.take .terminal .guidance (.exit g) (fun s => guidExit s g))

/-- GATE_QUEUE_NOTICE (R49). -/
def execGateQueueNotice (g : Nat) (raised : Bool) (s : State) : Host.Outcome State Fault Refusal :=
  goOn (s.take .terminal .guidance (.gateQueue g raised) (fun s => guidGateQueue s g raised))

/-- R52: the Section Time has reached the Expiry of the hold at place `k`. -/
def holdDue (s : State) (k : Nat) : Bool :=
  match s.guid.holds[k]? with
  | none => false
  | some h => decide (h.expiry ≤ s.secs)

/-- HOLD_EXPIRY (R52). -/
def execHoldExpiry (place : Nat) (s : State) : Host.Outcome State Fault Refusal :=
  goOn (s.when_ (holdDue s place) (fun s => guidExpire s place))

/-- REFRESH_TIMER_EXPIRY (R58). -/
def execRefreshTimerExpiry (i : Nat) (s : State) : Host.Outcome State Fault Refusal :=
  goOn (s.when_ (s.due (s.guid.sign i).refresh) (fun s => guidRefresh s i))

/-- SIGN_POLL_REPLY (R61). -/
def execSignPollReply (l : Fin 4) (n : Nat) (flags : Byte) (s : State) : Host.Outcome State Fault Refusal :=
  goOn (s.take (.controller l) .guidance (.signPoll n flags) (fun s => guidSignPoll s l n flags))

/-- SHOW_COMPLETION (R59). -/
def execShowCompletion (l : Fin 4) (n : Nat) (status : Byte) (content : List Byte) (s : State) : Host.Outcome State Fault Refusal :=
  goOn (s.take (.controller l) .guidance (.showDone n status content) (fun s => guidShow s l n status content))

/-- ZONE_COMMIT_GUIDANCE (R43). -/
def execZoneCommitGuidance (i : Nat) (s : State) : Host.Outcome State Fault Refusal :=
  match s.next? .capture .guidance with
  | some (.commit j (.zone old) (.zone new)) =>
    if j = i then goOn (guidZoneCommit (s.taken .capture .guidance) i old new) else goOn s
  | _ => goOn s

/-- GATE_COMMIT (R63). -/
def execGateCommit (i : Nat) (s : State) : Host.Outcome State Fault Refusal :=
  match s.next? .capture .guidance with
  | some (.commit j (.gate old) (.gate new)) =>
    if j = i then goOn (guidGateCommit (s.taken .capture .guidance) i old new) else goOn s
  | _ => goOn s

/-- SIGN_COMMIT (R62). -/
def execSignCommit (i : Nat) (s : State) : Host.Outcome State Fault Refusal :=
  match s.next? .capture .guidance with
  | some (.commit j (.sign old) (.sign new)) =>
    if j = i then goOn (guidSignCommit (s.taken .capture .guidance) i old new) else goOn s
  | _ => goOn s

end Sys2Proof.Machine
end

