-- ==== Sys2Proof/Machine/Lighting.lean ====
section
/-! DEFINITION. The Lighting Unit (Chapter 4): channel levels, presence, route counts, SET work on LIGHT nodes. -/

namespace Sys2Proof.Machine

/-- Channel `i`. -/
def Light.chan (u : Light) (i : Nat) : LChan := Tab.get LChan.init u.chans i

/-- Channel `i` replaced. -/
def Light.setChan (u : Light) (i : Nat) (x : LChan) : Light := { u with chans := Tab.set LChan.init u.chans i x }

/-- The unit's state of LIGHT node `n` of loop `l`. -/
def Light.node (u : Light) (l n : Nat) : LNode := Tab.get LNode.init u.nodes (nodeKey l n)

/-- That state replaced. -/
def Light.setNode (u : Light) (l n : Nat) (x : LNode) : Light := { u with nodes := Tab.set LNode.init u.nodes (nodeKey l n) x }

/-- The Zone Stage copy of zone `z`. -/
def Light.stage (u : Light) (z : Nat) : Nat := Tab.get 0 u.stages z

/-- The unit at work. -/
abbrev LightAcc := Acc Light

/-- R65: the Commanded Level that Table 4.2 gives. -/
def levelOf (u : Light) (x : LChan) : Nat :=
  if x.inForce.enabled then
    max x.inForce.idle
      (max (if x.timer.isSome then x.inForce.presence else 0)
        (max (if 0 < x.routes then x.inForce.route else 0)
          (max (if 3 ≤ u.stage x.inForce.zone then 100 else 0)
            (if u.override = .normal then 0 else 100))))
  else 0

/-- R69: the Channel Status. -/
def statusOf (u : Light) (x : LChan) : ChanStatus :=
  if x.inForce.enabled then (if (u.node x.inForce.loop x.inForce.node).usable then .ok else .unknown) else .unassigned

/-- R65, R69: evaluates a channel; a change places its record on the Reflect List. -/
def evalChan (a : LightAcc) (i : Nat) : LightAcc :=
  let x := a.u.chan i
  let lv := levelOf a.u x
  let st := statusOf a.u x
  if lv = x.level ∧ st = x.status then a
  else (a.put (a.u.setChan i { x with level := lv, status := st })).say (.reflect (.record .channel i))

/-- R70: the desired levels of a LIGHT node, by the output map. -/
def Light.desired (u : Light) (m : Maps) (l n : Nat) : List Nat :=
  (List.range 4).map (fun o => match m.chanAt l n o with | none => 0 | some i => (u.chan i).level)

/-- R70: OUTPUT work is marked when the desired levels differ from Last Set. -/
def lightCompare (m : Maps) (a : LightAcc) (l n : Nat) : LightAcc :=
  a.sayIf (decide ((a.u.node l n).lastSet ≠ some (a.u.desired m l n))) (.mark l n .output)

/-- R70: the nodes compared at the end of an event, loop by loop in address order (log 49): those whose desired levels the
event has changed, and those that it names. -/
def comparedNodes (m : Maps) (before after : Light) (nodes : List (Nat × Nat)) : List (Nat × Nat) :=
  nodePlaces.filter (fun p => decide (before.desired m p.1 p.2 ≠ after.desired m p.1 p.2) || decide (p ∈ nodes))

/-- R76: the end of an event: every channel is evaluated in channel order, then the nodes concerned are compared. -/
def lightEnd (m : Maps) (before : Light) (a : LightAcc) (nodes : List (Nat × Nat)) : LightAcc :=
  let a := a.each (Tab.keys a.u.chans) evalChan
  a.each (comparedNodes m before a.u nodes) (fun a p => lightCompare m a p.1 p.2)

/-- The unit's event put into the part. -/
def State.withLight (s : State) (a : LightAcc) (nodes : List (Nat × Nat)) : State :=
  let a := lightEnd s.maps s.light a nodes
  State.emit { s with light := a.u } a.out

/-- R66: a presence notice starts or restarts the timer of an assigned channel; otherwise it is discarded. -/
def lightPresence (s : State) (ch : Nat) : State :=
  let x := s.light.chan ch
  if x.inForce.enabled then
    s.withLight (Acc.start (s.light.setChan ch { x with timer := some (s.inSecs x.inForce.hold) })) []
  else s

/-- R66: a presence timer has run out. -/
def lightPresenceEnd (s : State) (ch : Nat) : State :=
  s.withLight (Acc.start (s.light.setChan ch { s.light.chan ch with timer := none })) []

/-- R67: a Route Count rises or falls by 1. -/
def lightRoute (s : State) (ch : Nat) (up : Bool) : State :=
  let x := s.light.chan ch
  let a := Acc.start (s.light.setChan ch { x with routes := if up then x.routes + 1 else x.routes - 1 })
  s.withLight (a.say (.reflect (.record .channel ch))) []

/-- R68: a stage notice. At the end of CLEARING it is taken before or after the override notice (letsPass). -/
def lightStage (s : State) (z k : Nat) : State :=
  s.withLight (Acc.start { s.light with stages := Tab.set 0 s.light.stages z k }) []

/-- R68: an override notice. -/
def lightOverride (s : State) (o : Override) : State := s.withLight (Acc.start { s.light with override := o }) []

/-- R69: a node notice of a LIGHT node. -/
def lightNotice (s : State) (l n : Nat) (old new : NodeState) : State :=
  if nodeUsable old && !nodeUsable new then
    s.withLight (Acc.start (s.light.setNode l n { usable := false, lastSet := none })) [(l, n)]
  else if !nodeUsable old && nodeUsable new then
    s.withLight (Acc.start (s.light.setNode l n { s.light.node l n with usable := true })) []
  else s

/-- R71, R72: a SET completion. A DONE one makes Last Set the levels sent; a refused one keeps it and makes no comparison. -/
def lightSet (s : State) (l n : Nat) (status : Byte) (levels : List Nat) : State :=
  if status = 0 then
    s.withLight (Acc.start (s.light.setNode l n { s.light.node l n with lastSet := some levels })) [(l, n)]
  else s

/-- R73: a DONE POLL reply. -/
def lightPoll (s : State) (l n : Nat) (levels : List Nat) : State :=
  let nd := s.light.node l n
  let nd := if nd.lastSet.isSome && decide (nd.lastSet ≠ some levels) then { nd with lastSet := none } else nd
  s.withLight (Acc.start (s.light.setNode l n nd)) [(l, n)]

/-- The node that an enabled record names. -/
def ChannelRec.places (r : ChannelRec) : List (Nat × Nat) := if r.enabled then [(r.loop, r.node)] else []

/-- R75: a commit between two enabled records moves the channel. -/
def ChannelRec.moves (old new : ChannelRec) : Bool :=
  decide (old.loop ≠ new.loop ∨ old.node ≠ new.node ∨ old.output ≠ new.output)

/-- R74, R75: a CHANNEL commit. Between two enabled records the presence timer is kept, otherwise it is stopped. The
comparison is made for the old and the new node when the channel is assigned, unassigned or moved; the node that a disabled
record names is not compared for that record: DESIGN CHOICE (log 68). -/
def lightCommit (s : State) (i : Nat) (old new : ChannelRec) : State :=
  let x := s.light.chan i
  let timer := if old.enabled && new.enabled then x.timer else none
  let a := Acc.start (s.light.setChan i { x with inForce := new, timer := timer })
  s.withLight a (if old.enabled && new.enabled && !old.moves new then [] else old.places ++ new.places)

/-- R64: entry to RUN marks OUTPUT work on every LIGHT node. -/
def State.lightEnterRun (s : State) : State :=
  s.emit (nodePlaces.filterMap (fun p =>
    if s.kindOf p.1 p.2 = .light then some (.mark p.1 p.2 .output) else none))

/-- PRESENCE (R66). -/
def execPresence (ch : Nat) (s : State) : Host.Outcome State Fault Refusal :=
  goOn (s.take .occupancy .lighting (.presence ch) (fun s => lightPresence s ch))

/-- PRESENCE_TIMER_EXPIRY (R66). -/
def execPresenceTimerExpiry (ch : Nat) (s : State) : Host.Outcome State Fault Refusal :=
  goOn (s.when_ (s.due (s.light.chan ch).timer) (fun s => lightPresenceEnd s ch))

/-- ROUTE_COUNT_RAISED (R67). -/
def execRouteCountRaised (ch : Nat) (s : State) : Host.Outcome State Fault Refusal :=
  goOn (s.take .guidance .lighting (.routeRaised ch) (fun s => lightRoute s ch true))

/-- ROUTE_COUNT_LOWERED (R67). -/
def execRouteCountLowered (ch : Nat) (s : State) : Host.Outcome State Fault Refusal :=
  goOn (s.take .guidance .lighting (.routeLowered ch) (fun s => lightRoute s ch false))

/-- LIGHT_POLL_REPLY (R73). -/
def execLightPollReply (l : Fin 4) (n : Nat) (levels : List Nat) (s : State) : Host.Outcome State Fault Refusal :=
  goOn (s.take (.controller l) .lighting (.lightPoll n levels) (fun s => lightPoll s l n levels))

/-- LIGHT_SET_COMPLETION (R71, R72). -/
def execLightSetCompletion (l : Fin 4) (n : Nat) (status : Byte) (levels : List Nat) (s : State) : Host.Outcome State Fault Refusal :=
  goOn (s.take (.controller l) .lighting (.lightSet n status levels) (fun s => lightSet s l n status levels))

/-- CHANNEL_COMMIT (R74, R75). -/
def execChannelCommit (i : Nat) (s : State) : Host.Outcome State Fault Refusal :=
  match s.next? .capture .lighting with
  | some (.commit j (.channel old) (.channel new)) =>
    if j = i then goOn (lightCommit (s.taken .capture .lighting) i old new) else goOn s
  | _ => goOn s

end Sys2Proof.Machine
end

