-- ==== Sys2Proof/Machine/Occupancy.lean ====
section
/-! DEFINITION. The Occupancy Unit (Chapter 2): bay states, the confirm rule, counts, notices and lamp work. -/

namespace Sys2Proof.Machine

/-- Bay `i`. -/
def Occ.bay (o : Occ) (i : Nat) : BayU := Tab.get BayU.init o.bays i

/-- Bay `i` replaced. -/
def Occ.setBay (o : Occ) (i : Nat) (b : BayU) : Occ := { o with bays := Tab.set BayU.init o.bays i b }

/-- The bay that the unit's Input Map names at an input of a BAY node. -/
def Occ.bayAt (o : Occ) (l n i : Nat) : Option Nat := Tab.get none o.inputs (inputKey l n i)

/-- R20, R40: the Input Map entry of an enabled record entered (`some` bay) or released (`none`) as the unit takes its commit. -/
def Occ.claim (o : Occ) (r : BayRec) (v : Option Nat) : Occ :=
  if r.enabled then { o with inputs := Tab.set none o.inputs (inputKey r.loop r.node r.input) v } else o

/-- The counts of zone `z`. -/
def Occ.zone (o : Occ) (z : Nat) : OccZone := Tab.get OccZone.init o.zones z

/-- The counts of zone `z` replaced. -/
def Occ.setZone (o : Occ) (z : Nat) (x : OccZone) : Occ := { o with zones := Tab.set OccZone.init o.zones z x }

/-- The unit's state of node `n` of loop `l`. -/
def Occ.node (o : Occ) (l n : Nat) : OccNode := Tab.get OccNode.init o.nodes (nodeKey l n)

/-- That state replaced. -/
def Occ.setNode (o : Occ) (l n : Nat) (x : OccNode) : Occ := { o with nodes := Tab.set OccNode.init o.nodes (nodeKey l n) x }

/-- F[z][c]. -/
def OccZone.free (x : OccZone) (c : Nat) : Nat := if c = 0 then x.general else if c = 1 then x.accessible else x.charging

/-- F[z][c] replaced. -/
def OccZone.setFree (x : OccZone) (c v : Nat) : OccZone :=
  if c = 0 then { x with general := v } else if c = 1 then { x with accessible := v } else { x with charging := v }

/-- A message of the unit. -/
def occSend (dst : UnitId) (b : Body) : Eff := .send { src := .occupancy, dst := dst, body := b }

/-- The unit at work. -/
abbrev OccAcc := Acc Occ

/-- F[z][c] falls by 1 and the ZONE record joins the Reflect List. -/
def freeDown (a : OccAcc) (z c : Nat) : OccAcc :=
  (a.put (a.u.setZone z ((a.u.zone z).setFree c ((a.u.zone z).free c - 1)))).say (.reflect (.record .zone z))

/-- F[z][c] rises by 1 and the ZONE record joins the Reflect List. -/
def freeUp (a : OccAcc) (z c : Nat) : OccAcc :=
  (a.put (a.u.setZone z ((a.u.zone z).setFree c ((a.u.zone z).free c + 1)))).say (.reflect (.record .zone z))

/-- U[z] falls by 1. -/
def unknownDown (a : OccAcc) (z : Nat) : OccAcc :=
  (a.put (a.u.setZone z { a.u.zone z with unknown := (a.u.zone z).unknown - 1 })).say (.reflect (.record .zone z))

/-- U[z] rises by 1. -/
def unknownUp (a : OccAcc) (z : Nat) : OccAcc :=
  (a.put (a.u.setZone z { a.u.zone z with unknown := (a.u.zone z).unknown + 1 })).say (.reflect (.record .zone z))

/-- The notice FREE lost with the new count (R30, R31). -/
def sayFreeLost (a : OccAcc) (z c : Nat) : OccAcc := a.say (occSend .guidance (.freeLost z c ((a.u.zone z).free c)))

/-- The notice FREE gained with the new count (R30). -/
def sayFreeGained (a : OccAcc) (z c : Nat) : OccAcc := a.say (occSend .guidance (.freeGained z c ((a.u.zone z).free c)))

/-- Table 2.4: presence, for a bay whose Channel is not 255, and traffic. -/
def sayMovement (a : OccAcc) (r : BayRec) : OccAcc :=
  (a.sayIf (decide (r.channel ≠ 255)) (occSend .lighting (.presence r.channel))).say (occSend .air (.traffic r.zone))

/-- A bay's state, Pending Value cleared, with Last Change at the Section Time; the BAY record joins the Reflect List. -/
def setBayState (s : State) (a : OccAcc) (i : Nat) (st : BayState) : OccAcc :=
  (a.put (a.u.setBay i { a.u.bay i with state := st, pend := none, agree := 0, lastChange := s.time })).say
    (.reflect (.record .bay i))

/-- R29, R30: the confirm rule accepts `v` for bay `i`. -/
def acceptBay (s : State) (a : OccAcc) (i : Nat) (v : Sensed) : OccAcc :=
  let b := a.u.bay i
  let z := b.inForce.zone
  let c := b.inForce.cls
  match b.state, v with
  | .free, .occupied =>
    let a := setBayState s a i .occupied
    let a := a.put (a.u.setBay i { a.u.bay i with arrivals := b.arrivals + 1 })
    let a := sayFreeLost (freeDown a z c) z c
    sayMovement (a.say (occSend .guidance (.occupiedAccepted z))) b.inForce
  | .occupied, .free => sayMovement (sayFreeGained (freeUp (setBayState s a i .free) z c) z c) b.inForce
  | .unknown, .free => sayFreeGained (freeUp (unknownDown (setBayState s a i .free) z) z c) z c
  | .unknown, .occupied => (unknownDown (setBayState s a i .occupied) z).say (occSend .guidance (.occupiedAccepted z))
  | .free, .free | .occupied, .occupied | .disabled, _ | .closed, _ => a

/-- The Bay State that a sensed value names. -/
def Sensed.state : Sensed → BayState
  | .free => .free
  | .occupied => .occupied

/-- R28, the confirm rule for a fault-free report `v` at a bay in UNKNOWN, FREE or OCCUPIED. -/
def confirmBay (s : State) (a : OccAcc) (i : Nat) (v : Sensed) : OccAcc :=
  let b := a.u.bay i
  if b.state = v.state then a.put (a.u.setBay i { b with pend := none, agree := 0 })
  else if b.pend = some v ∧ b.agree = 1 then acceptBay s a i v
  else a.put (a.u.setBay i { b with pend := some v, agree := 1 })

/-- R31: a bay in FREE or OCCUPIED enters UNKNOWN; one already in UNKNOWN loses its Pending Value (R25, R27). -/
def bayUnknown (s : State) (a : OccAcc) (i : Nat) : OccAcc :=
  let b := a.u.bay i
  let z := b.inForce.zone
  match b.state with
  | .free =>
    let a := freeDown (unknownUp (setBayState s a i .unknown) z) z b.inForce.cls
    sayFreeLost a z b.inForce.cls
  | .occupied => unknownUp (setBayState s a i .unknown) z
  | .unknown => a.put (a.u.setBay i { b with pend := none, agree := 0 })
  | .disabled | .closed => a

/-- R27: one input of a DONE POLL reply, at the bay that the unit's Input Map names: a reply taken before a commit's hand-over
finds the bay on its old input (R40). -/
def takeInput (s : State) (l n : Nat) (occupancy fault : BitVec 16) (a : OccAcc) (i : Nat) : OccAcc :=
  match a.u.bayAt l n i with
  | none => a
  | some k =>
    match (a.u.bay k).state with
    | .disabled | .closed => a
    | .unknown | .free | .occupied =>
      if fault.getLsbD i then bayUnknown s a k
      else confirmBay s a k (if occupancy.getLsbD i then .occupied else .free)

/-- R33: the Fault Condition of a zone, noticed when it changes. -/
def faultCheck (a : OccAcc) (z : Nat) : OccAcc :=
  let x := a.u.zone z
  let c := decide (x.enabled < 4 * x.unknown)
  if c = x.fault then a
  else (a.put (a.u.setZone z { x with fault := c })).say
    (occSend .guidance (if c then .faultAsserted z else .faultWithdrawn z))

/-- R34: the desired lamp word of a BAY node. -/
def Occ.lampWord (o : Occ) (l n : Nat) : BitVec 16 :=
  (List.range 16).foldl (fun w i =>
    match o.bayAt l n i with
    | none => w
    | some k => if (o.bay k).state = .free then w ||| BitVec.ofNat 16 (2 ^ i) else w) 0

/-- R34: OUTPUT work is marked when the desired lamp word differs from the low half of the Reported Word. -/
def lampCompare (a : OccAcc) (l n : Nat) : OccAcc :=
  a.sayIf (match (a.u.node l n).reported with
    | none => true
    | some w => decide (BitVec.truncate 16 w ≠ a.u.lampWord l n)) (.mark l n .output)

/-- R33, R34, R40: the end of an event: the fault notices, by zone index (log 48), then the lamp comparisons of the nodes
concerned. -/
def occEnd (a : OccAcc) (nodes : List (Nat × Nat)) : OccAcc :=
  (a.each (List.range 16) faultCheck).each nodes (fun a p => lampCompare a p.1 p.2)

/-- The unit's event put into the part. -/
def State.withOcc (s : State) (a : OccAcc) : State := State.emit { s with occ := a.u } a.out

/-- R27: a DONE POLL reply. -/
def occPoll (s : State) (l n : Nat) (occupancy fault : BitVec 16) (word : Word) : State :=
  let a := Acc.start (s.occ.setNode l n { s.occ.node l n with reported := some word })
  s.withOcc (occEnd (a.each (List.range 16) (takeInput s l n occupancy fault)) [(l, n)])

/-- R36: the Output Word of a MODIFY reply; one that is not DONE changes no Reported Word. -/
def occModify (s : State) (l n : Nat) (status : Byte) (word : Word) : State :=
  if status = 0 then
    s.withOcc (occEnd (Acc.start (s.occ.setNode l n { s.occ.node l n with reported := some word })) [(l, n)])
  else s

/-- R25: the node has ceased to be usable. -/
def occNodeLost (s : State) (l n : Nat) : State :=
  let a := (Acc.start s.occ).put (s.occ.setNode l n { usable := false, reported := none })
  let a := a.each (List.range 16) (fun a i =>
    match a.u.bayAt l n i with
    | none => a
    | some k => bayUnknown s a k)
  s.withOcc (occEnd a [(l, n)])

/-- R26: the node has become usable. -/
def occNodeBack (s : State) (l n : Nat) : State :=
  s.withOcc (Acc.start (s.occ.setNode l n { s.occ.node l n with usable := true }))

/-- R129 at the Occupancy Unit: R25 or R26 as the node leaves or enters use. -/
def occNotice (s : State) (l n : Nat) (old new : NodeState) : State :=
  if nodeUsable old && !nodeUsable new then occNodeLost s l n
  else if !nodeUsable old && nodeUsable new then occNodeBack s l n
  else s

/-! ### Commits (Section 2.7) -/

/-- E[z] changed by an enabled record that leaves or comes. -/
def enabledChange (a : OccAcc) (z : Nat) (up : Bool) : OccAcc :=
  let x := a.u.zone z
  a.put (a.u.setZone z { x with enabled := if up then x.enabled + 1 else x.enabled - 1 })

/-- R37: counts out the state a bay leaves at its old counting place; a FREE bay's loss is noticed. -/
def countOut (a : OccAcc) (st : BayState) (r : BayRec) : OccAcc :=
  match st with
  | .free => sayFreeLost (freeDown a r.zone r.cls) r.zone r.cls
  | .unknown => unknownDown a r.zone
  | .occupied | .closed | .disabled => a

/-- The Bay State of a bay counted in anew (R37). -/
def enteredState (r : BayRec) : BayState := if r.closed then .closed else .unknown

/-- R37: counts in a bay at its new place: U rises unless it is CLOSED. -/
def countIn (a : OccAcc) (r : BayRec) : OccAcc := if r.closed then a else unknownUp a r.zone

/-- The bay with its new record and state; Last Change follows a change of Bay State alone (R24, R38). -/
def placeBay (s : State) (a : OccAcc) (i : Nat) (r : BayRec) (st : BayState) : OccAcc :=
  let b := a.u.bay i
  let when_ := if st = b.state then b.lastChange else s.time
  (a.put (a.u.setBay i { b with inForce := r, state := st, pend := none, agree := 0, lastChange := when_ })).say
    (.reflect (.record .bay i))

/-- R39: a commit that keeps the sensor reference. -/
def bayKept (s : State) (a : OccAcc) (i : Nat) (old new : BayRec) : OccAcc :=
  let b := a.u.bay i
  let a := if old.zone = new.zone then a else enabledChange (enabledChange a old.zone false) new.zone true
  if !old.closed && new.closed then placeBay s (countOut a b.state old) i new .closed
  else if old.closed && !new.closed then placeBay s (countIn a new) i new .unknown
  else
    let a := (a.put (a.u.setBay i { b with inForce := new })).say (.reflect (.record .bay i))
    if old.zone = new.zone ∧ old.cls = new.cls then a
    else
      match b.state with
      | .free => sayFreeGained (freeUp (countOut a .free old) new.zone new.cls) new.zone new.cls
      | .unknown => if old.zone = new.zone then a else unknownUp (unknownDown a old.zone) new.zone
      | .occupied | .closed | .disabled => a

/-- R37, R38, R39: a BAY commit taken from its pair. The node that an enabled record of the pair names, the old or the new, is
compared under R34, also at a commit that changes no word (log 58, DEDUCED). The node that a disabled record names is not
compared for that record, although R37 speaks of the old and of the new node: DESIGN CHOICE (log 68). The Input Map of the unit changes with the commit (R40). Where a commit
takes a bay away, its ZONE record joins the Reflect List before its BAY record (log 60). A commit that leaves the bay disabled
places no record on the list here: its BAY record has joined at the commit itself, by R11 (log 65). -/
def occCommit (s : State) (i : Nat) (old new : BayRec) : State :=
  let a := Acc.start ((s.occ.claim old none).claim new (some i))
  let b := s.occ.bay i
  let a :=
    match old.enabled, new.enabled with
    | false, false => a.put (a.u.setBay i { b with inForce := new })
    | false, true => countIn (placeBay s (enabledChange a new.zone true) i new (enteredState new)) new
    | true, false => placeBay s (countOut (enabledChange a old.zone false) b.state old) i new .disabled
    | true, true =>
      if old.loop = new.loop ∧ old.node = new.node ∧ old.input = new.input then bayKept s a i old new
      else
        let a := countOut (enabledChange a old.zone false) b.state old
        countIn (placeBay s (enabledChange a new.zone true) i new (enteredState new)) new
  s.withOcc (occEnd a ((if old.enabled then [(old.loop, old.node)] else []) ++
    (if new.enabled then [(new.loop, new.node)] else [])))

/-! ### Work built for the Loop Scheduler -/

/-- R35: the AND, OR and XOR masks of the lamp MODIFY. -/
def lampMasks (o : Occ) (l n : Nat) : BitVec 32 × BitVec 32 × BitVec 32 :=
  let want := o.lampWord l n
  let changed := match (o.node l n).reported with
    | none => 0xFFFF#16
    | some w => want ^^^ BitVec.truncate 16 w
  (BitVec.append 0xFFFF#16 (~~~(changed &&& ~~~want)), BitVec.zeroExtend 32 (changed &&& want), 0)

/-- R23, R34: entry to RUN marks OUTPUT work on every BAY node. -/
def State.occEnterRun (s : State) : State :=
  s.emit (nodePlaces.filterMap (fun p =>
    if s.kindOf p.1 p.2 = .bay then some (.mark p.1 p.2 .output) else none))

/-- BAY_POLL_REPLY (R27). -/
def execBayPollReply (l : Fin 4) (n : Nat) (occupancy fault : BitVec 16) (word : Word) (s : State) :
    Host.Outcome State Fault Refusal :=
  goOn (s.take (.controller l) .occupancy (.bayPoll n occupancy fault word) (fun s => occPoll s l n occupancy fault word))

/-- MODIFY_REPLY (R36). -/
def execModifyReply (l : Fin 4) (n : Nat) (status : Byte) (word : Word) (s : State) : Host.Outcome State Fault Refusal :=
  goOn (s.take (.controller l) .occupancy (.modify n status word) (fun s => occModify s l n status word))

/-- BAY_COMMIT (R37 to R39): the pair at the head of Table Capture's messages to the Occupancy Unit. -/
def execBayCommit (i : Nat) (s : State) : Host.Outcome State Fault Refusal :=
  match s.next? .capture .occupancy with
  | some (.commit j (.bay old) (.bay new)) =>
    if j = i then goOn (occCommit (s.taken .capture .occupancy) i old new) else goOn s
  | _ => goOn s

end Sys2Proof.Machine
end

