-- ==== Sys2Proof/Machine/Ring.lean ====
section
/-! DEFINITION. The Request Ring Unit (Sections 9.3 to 9.6): fetching and checking slots, Host Queues, sweeps, completion. -/

namespace Sys2Proof.Machine

/-- Slot `i`. -/
def Ring.slot (r : Ring) (i : Nat) : Slot := Tab.get Slot.init r.slots i

/-- Slot `i` replaced. -/
def Ring.setSlot (r : Ring) (i : Nat) (x : Slot) : Ring := { r with slots := Tab.set Slot.init r.slots i x }

/-- The Host Queue of loop `l`. -/
def Ring.queue (r : Ring) (l : Nat) : List Entry := Tab.get [] r.queues l

/-- That queue replaced. -/
def Ring.setQueue (r : Ring) (l : Nat) (q : List Entry) : Ring := { r with queues := Tab.set [] r.queues l q }

/-- The unit at work. -/
abbrev RingAcc := Acc Ring

/-- Code of a Failure Cause (R128). -/
def causeCode : FailCause → Nat
  | .none => 0
  | .timeout => 1
  | .mismatch => 2
  | .unreached => 3

/-! ### Completion (R153, R154) -/

/-- R154: slot `i` completes with these fields. -/
def completeSlot (a : RingAcc) (i : Nat) (x : Slot) : RingAcc :=
  let a := a.put { a.u.setSlot i x with completed := a.u.completed + 1 }
  ((a.say (.reflect (.slot i))).say (.reflect .header)).say (.attend .ringDone)

/-- The slot fields of an entry's completion (R153). -/
def Entry.slotFor (e : Entry) (status detail : Nat) : Slot :=
  { status := status, detail := detail, replyLen := e.lastReply.length, notDone := e.count - e.steps, lastNode := e.lastDone,
    reply := e.lastReply }

/-- R154: an entry of the Host Queue of loop `l` completes with these fields and leaves its queue; no other entry does. -/
def finishEntry (a : RingAcc) (l : Nat) (e : Entry) (x : Slot) : RingAcc :=
  let a := completeSlot a e.slot x
  a.put { a.u.setQueue l ((a.u.queue l).erase e) with causeDeparture := true }

/-- R153, R154: an entry completes with the progress it has made. -/
def completeEntry (a : RingAcc) (l : Nat) (e : Entry) (status detail : Nat) : RingAcc :=
  finishEntry a l e (e.slotFor status detail)

/-- The entry numbered `id` in the Host Queue of loop `l`. -/
def Ring.entry (r : Ring) (l id : Nat) : Option Entry := (r.queue l).find? (fun e => decide (e.id = id))

/-- An entry replaced at its place in its queue. -/
def Ring.setEntry (r : Ring) (l : Nat) (e e' : Entry) : Ring := r.setQueue l ((r.queue l).replace e e')

/-- R151: the entries that stand earliest in a queue among those of the same current node and are not in hand. -/
def earliest : List Nat → List Entry → List Entry
  | _, [] => []
  | seen, e :: es =>
    if e.cur ∈ seen then earliest seen es
    else if e.inHand then earliest (e.cur :: seen) es
    else e :: earliest (e.cur :: seen) es

/-- R151: the outcome of the first two dispatch checks for an entry, if one ends it. -/
def stateCheck (L : Loop) (e : Entry) : Option (Nat × Nat) :=
  match (L.node e.cur).state with
  | .failed => some (9, causeCode (L.node e.cur).cause)
  | .isolated => some (10, 0)
  | .absent | .joining | .ready | .waiting => none

/-- R151: makes the checks of the entries of loop `l` that stand earliest, until none ends. Several that one event ends complete,
and join the Reflect List, in their order in the Host Queue (log 26). -/
def settle (L : Loop) (l : Nat) : Nat → RingAcc → RingAcc
  | 0, a => a
  | k + 1, a =>
    match (earliest [] (a.u.queue l)).find? (fun e => (stateCheck L e).isSome) with
    | none => a
    | some e =>
      match stateCheck L e with
      | none => a
      | some (st, d) => settle L l k (completeEntry a l e st d)

/-- The checks of every entry of a Host Queue: at most 8 can end. -/
def settleQueue (L : Loop) (l : Nat) (a : RingAcc) : RingAcc := settle L l (a.u.queue l).length a

/-- The four loops. -/
def loopNums : List Nat := [0, 1, 2, 3]

/-- The unit's event put into the part, after the dispatch checks of every loop. -/
def State.withRing (s : State) (a : RingAcc) : State :=
  let a := a.each loopNums (fun a l => settleQueue (s.loop l) l a)
  State.emit { s with ring := a.u } a.out

/-! ### Checks at fetch (R149) -/

/-- R149, check 5: the Payload Length fits the kind. -/
def lengthFits (kind len : Nat) : Bool :=
  if kind = 3 then decide (len = 12) else if kind = 4 then decide (len = 16) else if kind = 8 then decide (len ≤ 15)
  else decide (len = 0)

/-- Table 9.6. -/
def kindAccepted (kind : Nat) (k : NodeKind) : Bool :=
  if kind = 3 then decide (k = .bay) else if kind = 4 then decide (k = .sign) else if kind = 5 then decide (k = .gas)
  else decide (k ≠ .none)

/-- The Sweep Count taken (Table 9.5, R149). -/
def sweepTaken (c : Nat) : Nat := if c = 0 then 1 else min c 32

/-- R149, check 6: the nodes of a sweep that exist. -/
def sweepNodes (first k : Nat) : List Nat := ((List.range k).map (fun j => first + j)).filter (fun n => decide (n ≤ 32))

/-- R149, R151: the sign node map names an enabled applied SIGN record in MANUAL mode for a node. -/
def State.manualSign (s : State) (l n : Nat) : Bool :=
  match Tab.get none s.capture.maps.signNode (nodeKey l n) with
  | none => false
  | some i =>
    let r := Tab.get SignRec.init s.capture.applied.sign i
    r.enabled && decide (r.mode = 1)

/-- R149, check 6 at one node: the detail of a failure. -/
def nodeDetail (s : State) (kind l n : Nat) : Option Nat :=
  if s.kindOf l n = .none then some 3 else if kindAccepted kind (s.kindOf l n) then none else some 1

/-- R149: the (Slot Status, Detail) of the first check that a slot fails, or none. -/
def slotCheck (s : State) (bs : List Byte) : Option (Nat × Nat) :=
  let kind := num8 bs 0
  let l := num8 bs 1
  let n := num8 bs 2
  let ns := sweepNodes n (sweepTaken (num8 bs 4))
  if !decide (kind = 1 ∨ kind = 3 ∨ kind = 4 ∨ kind = 5 ∨ kind = 6 ∨ kind = 8) then some (7, 1)
  else if !loopOk l then some (7, 2)
  else if !nodeOk n then some (7, 3)
  else if 32 < num8 bs 4 then some (7, 5)
  else if !lengthFits kind (num8 bs 5) then some (7, 4)
  else
    match ns.findSome? (nodeDetail s kind l) with
    | some d => some (7, d)
    | none =>
      if decide (kind = 3) && !(decide (num16 bs 8 = 65535 ∧ num16 bs 12 = 0 ∧ num16 bs 16 = 0)) then some (8, 1)
      else if decide (kind = 4) && !(ns.all (s.manualSign l)) then some (8, 2)
      else none

/-- R150: the Host Queue entry of a slot that passes. -/
def entryOf (id i : Nat) (bs : List Byte) : Entry :=
  { id := id, slot := i, kind := num8 bs 0, first := num8 bs 2, force := bitAt bs 3 0, count := sweepTaken (num8 bs 4),
    payload := (bs.drop 8).take (num8 bs 5), cur := num8 bs 2, steps := 0, lastDone := 0, lastReply := [], inHand := false }

/-! ### Fetching (R148) -/

/-- R147: the fetch index and Fetch advance by one slot. -/
def advance (s : State) (a : RingAcc) : RingAcc :=
  let next := if a.u.index + 1 < s.ringCount then a.u.index + 1 else 0
  (a.put { a.u with index := next, fetch := a.u.fetch + 1, blocked := none }).say (.reflect .header)

/-- R148: what follows when the distance to the Producer read is above 0, and the end of the fetch in progress when it is 0. -/
def fetchOn (producer : BitVec 16) (a : RingAcc) : RingAcc :=
  a.put { a.u with fetching := if producer = a.u.fetch then .idle else .slot producer }

/-- R149, R154: slot `i` fails a check at fetch and completes at once. -/
def refuseSlot (a : RingAcc) (i : Nat) (bs : List Byte) (status detail : Nat) : RingAcc :=
  completeSlot a i
    { status := status, detail := detail, replyLen := 0, notDone := sweepTaken (num8 bs 4), lastNode := 0, reply := [] }

/-- R150: slot `i` enters the Host Queue of its loop, QUEUED. -/
def queueSlot (a : RingAcc) (i : Nat) (bs : List Byte) : RingAcc :=
  let l := num8 bs 1
  let r := { a.u.setQueue l (a.u.queue l ++ [entryOf a.u.taken i bs]) with taken := a.u.taken + 1 }
  (a.put (r.setSlot i { r.slot i with status := 1 })).say (.reflect (.slot i))

/-- R148, R149, R150: the slot at the fetch index, its bytes 0 to 23 read: it is refused, or taken into its Host Queue, and
fetching goes on; or it is held back as the blocked slot, which ends the attempt. -/
def takeSlot (s : State) (producer : BitVec 16) (bs : List Byte) (a : RingAcc) : RingAcc :=
  match slotCheck s bs with
  | some (st, d) => fetchOn producer (advance s (refuseSlot a a.u.index bs st d))
  | none =>
    if (a.u.queue (num8 bs 1)).length < 8 then fetchOn producer (advance s (queueSlot a a.u.index bs))
    else a.put { a.u with blocked := some a.u.index, fetching := .idle }

/-- R148: the unit has a ring fetch read to make: a fetch is in progress, or an attempt waits that reads. While Ring State is
OVERRUN only a Producer write makes an attempt read. -/
def Ring.reads (r : Ring) : Bool := decide (r.fetching ≠ .idle) || r.causeProducer || (r.causeDeparture && !r.overrun)

/-- R148: an attempt reads Producer, which takes every cause that has come. -/
def readProducer (s : State) : RingAcc :=
  let r := s.ring
  let a := Acc.start { r with causeProducer := false, causeDeparture := false, blocked := none }
  let producer := BitVec.ofNat 16 (num16 (Memory.readAll s.mem (s.recAddr .header) 2) 0)
  if s.ringCount < (producer - r.fetch).toNat then (a.put { a.u with overrun := true }).say (.reflect .header)
  else fetchOn producer (if r.overrun then (a.put { a.u with overrun := false }).say (.reflect .header) else a)

/-- R148, R165: one part burst of a fetch attempt: the read of Producer, the four words of a slot from byte 0, or the two from
byte 16 (log 62). An attempt that a departure has caused in OVERRUN reads nothing. -/
def fetchBurst (s : State) : RingAcc :=
  let r := s.ring
  let slot := s.recAddr (.slot r.index)
  match r.fetching with
  | .slot producer => Acc.start { r with fetching := .rest producer (Memory.readAll s.mem slot 16) }
  | .rest producer head => takeSlot s producer (head ++ Memory.readAll s.mem (slot + 16) 8) (Acc.start r)
  | .idle => if r.reads then readProducer s else Acc.start { r with causeDeparture := false }

/-- R165: the part may be granted the Memory Port: no burst of the host holds it, and no host beat waits for it unless the
grant counter stands at 16. -/
def State.portFree (s : State) : Bool := !s.port.grant && (s.port.wait.isNone || decide (16 ≤ s.port.counter))

/-- R165: the part's own reads and BUILD writes may be granted: the port is free, and no commit read-back, which goes before them,
waits for it. Reflect writes alone may be made meanwhile (R161; log 11). -/
def State.partFree (s : State) : Bool := s.portFree && s.port.commit.isNone

/-- R148, R165: a ring fetch read waits for the port. -/
def State.fetchWaits (s : State) : Bool := decide (s.mode = .run) && decide (0 < s.ringCount) && s.ring.reads

/-- R148, R165: a burst of an attempt is due, and the port can grant what it reads. -/
def State.fetchDue (s : State) : Bool :=
  decide (s.mode = .run) && decide (0 < s.ringCount) && (s.ring.reads || s.ring.causeDeparture) &&
    (s.partFree || !s.ring.reads)

/-! ### Sweeps (R153) -/

/-- R153: the outcome of a step of the entry `e` of loop `l`. -/
def stepOutcome (a : RingAcc) (l : Nat) (e : Entry) : StepOutcome → RingAcc
  | .ended st d => completeEntry a l e st d
  | .done payload =>
    let f := { e with steps := e.steps + 1, lastDone := e.cur, lastReply := payload, inHand := false }
    if f.steps = f.count then finishEntry a l e (f.slotFor 3 0)
    else if f.cur = 32 then finishEntry a l e (f.slotFor 7 3)
    else a.put (a.u.setEntry l e { f with cur := f.cur + 1 })

/-- R153: the unit takes the outcome of a host request's step. -/
def ringOutcome (s : State) (l id : Nat) (o : StepOutcome) : State :=
  let a := Acc.start s.ring
  s.withRing
    (match s.ring.entry l id with
    | none => a
    | some e => stepOutcome a l e o)

/-! ### The commands -/

/-- HOST_REQUEST_COMPLETION (R153). -/
def execHostRequestCompletion (l : Fin 4) (slot : Nat) (s : State) : Host.Outcome State Fault Refusal :=
  match s.next? (.controller l) .ring with
  | some (.hostStep i id _ o) =>
    if i = slot then goOn (ringOutcome (s.taken (.controller l) .ring) l id o) else goOn s
  | _ => goOn s

end Sys2Proof.Machine
end

