-- ==== Sys2Proof/Machine/Loops.lean ====
section
/-! DEFINITION. The Field Loop Controllers and Loop Schedulers (Chapter 8, Sections 9.1 and 9.2): dispatch, replies,
timeouts, loop states, the loop commands' effects. -/

namespace Sys2Proof.Machine

/-- One controller at work: its loop, the Request Ring Unit, and the counter of free values. -/
structure Ctl where
  L : Loop
  ring : Ring
  free : Nat

/-- The controller at work. -/
abbrev CtlAcc := Acc Ctl

/-- The loop replaced. -/
def CtlAcc.setL (a : CtlAcc) (L : Loop) : CtlAcc := Acc.put a { a.u with L := L }

/-- Work of the Request Ring Unit inside the controller's event. -/
def CtlAcc.onRing (a : CtlAcc) (f : RingAcc → RingAcc) : CtlAcc :=
  let r := f { u := a.u.ring, out := a.out }
  { u := { a.u with ring := r.u }, out := r.out }

/-- The controller's event on loop `l` put into the part, after the dispatch checks of the loop (R151; log 26). -/
def State.withCtl (s : State) (l : Nat) (f : CtlAcc → CtlAcc) : State :=
  let a := f (Acc.start { L := s.loop l, ring := s.ring, free := s.free })
  let a := CtlAcc.onRing a (settleQueue a.u.L l)
  State.emit { s with loops := Tab.set Loop.init s.loops l a.u.L, ring := a.u.ring, free := a.u.free } a.out

/-! ### Ends (R130, R135) -/

/-- The frame in flight on an end. -/
def Loop.flight (L : Loop) : End → Option Flight
  | .a => L.endA
  | .b => L.endB

/-- The frame in flight on an end replaced. -/
def Loop.setFlight (L : Loop) (e : End) (f : Option Flight) : Loop :=
  match e with
  | .a => { L with endA := f }
  | .b => { L with endB := f }

/-- Both ends are free. -/
def Loop.bothFree (L : Loop) : Bool := L.endA.isNone && L.endB.isNone && !L.both

/-- An end is free. -/
def Loop.endFree (L : Loop) (e : End) : Bool := (L.flight e).isNone && !L.both

/-- The Reach that an end stands for. -/
def endReach : End → Reach
  | .a => .a
  | .b => .b

/-- A frame put on an end: its timer starts when the last byte has left (R130). -/
def Loop.send (L : Loop) (e : End) (frame : List Byte) (w : Work) : Loop :=
  L.setFlight e (some { frame := frame, work := w, timer := none, reply := true, pass := decide (L.state = .closed) })

/-- An end whose item has ended: it is held on while the pass-through outcome is open (R135). -/
def Loop.release (L : Loop) (e : End) : Loop :=
  let L := { L with both := false }
  match L.flight e with
  | none => L
  | some f => if f.pass then L.setFlight e (some { f with reply := false }) else L.setFlight e none

/-- R135, R138: the ECHO to address 0 on end A, with B kept silent. -/
def Loop.sendTest (L : Loop) (w : Work) : Loop :=
  { L with endA := some { frame := testFrame, work := w, timer := none, reply := false, pass := true }, both := true }

/-- A loop has a node of Configured Kind other than NONE. -/
def Loop.configured (L : Loop) : Bool := L.nodes.any (fun e => decide (e.2.kind ≠ .none))

/-- R135: the start test of an IDLE loop, once no end is held by an abandoned frame. -/
def startTest (L : Loop) : Loop :=
  if decide (L.state = .idle) && L.configured && L.bothFree then L.sendTest .startTest else L

/-! ### Nodes (R129, R132, R143, R144) -/

/-- The unit that owns nodes of a kind (R129). -/
def ownerOf : NodeKind → Option UnitId
  | .none => none
  | .bay => some .occupancy
  | .gas => some .air
  | .fan => some .fan
  | .light => some .lighting
  | .sign => some .guidance

/-- A message of the controller of loop `l`. -/
def ctlSend (l : Nat) (dst : UnitId) (b : Body) : Eff := .send { src := .controller l, dst := dst, body := b }

/-- A message to the owner of a node. -/
def tellOwner (l : Nat) (a : CtlAcc) (k : NodeKind) (b : Body) : CtlAcc :=
  match ownerOf k with
  | none => a
  | some u => Acc.say a (ctlSend l u b)

/-- R129: a change of state that is noticed. -/
def noticed (old new : NodeState) : Bool :=
  decide (nodeUsable old ≠ nodeUsable new) || decide ((old = .failed) ≠ (new = .failed))

/-- R129, R144: a node goes to a new state, with its notice; at a passage into READY from JOINING or FAILED the POLL mark
is set and Next Poll Due takes the time. -/
def setNodeState (s : State) (l : Nat) (a : CtlAcc) (n : Nat) (new : NodeState) : CtlAcc :=
  let nd := a.u.L.node n
  let joins := decide (new = .ready ∧ (nd.state = .joining ∨ nd.state = .failed))
  let nd' := if joins then { nd with state := new, pollDue := s.clock, pollTaken := true } else { nd with state := new }
  let L := a.u.L.setNode n nd'
  let a := a.setL (if joins then L.setMark n .poll else L)
  let a := Acc.sayIf a (decide (new = .failed ∧ nd.state ≠ .failed)) (.attend .nodeFailed)
  if noticed nd.state new then tellOwner l a nd.kind (.nodeNotice n nd.state new) else a

/-- A node with its entry changed. -/
def onNode (a : CtlAcc) (n : Nat) (f : Node → Node) : CtlAcc := a.setL (a.u.L.setNode n (f (a.u.L.node n)))

/-- A node's mark set (R143). -/
def reMark (a : CtlAcc) (n : Nat) (m : Mark) : CtlAcc := a.setL (a.u.L.setMark n m)

/-- The outcome of a host request's step, sent to the Request Ring Unit (R129). -/
def hostEnds (l : Nat) (a : CtlAcc) (slot id n : Nat) (o : StepOutcome) : CtlAcc :=
  Acc.say a (ctlSend l .ring (.hostStep slot id n o))

/-- R132: the Outstanding Request leaves its node: a host request ends with this outcome, an internal one is dropped with
its mark set again. -/
def dropRequest (l : Nat) (a : CtlAcc) (n : Nat) (status detail : Nat) : CtlAcc :=
  let nd := a.u.L.node n
  let a := onNode a n (fun x => { x with out := none, retry := 0 })
  match nd.out with
  | none => a
  | some r =>
    match r.source with
    | .mark m => reMark a n m
    | .host slot id => hostEnds l a slot id n (.ended status detail)

/-- R132, R134, R137: a node goes to FAILED; its request, if any, ends TIMEOUT. -/
def failNode (s : State) (l : Nat) (a : CtlAcc) (n : Nat) (c : FailCause) : CtlAcc :=
  let a := dropRequest l a n 5 (causeCode c)
  let a := onNode a n (fun x => { x with cause := c, probeDue := s.secs + 10, probeTaken := false })
  setNodeState s l a n .failed

/-! ### Split discovery (R137) -/

/-- A node that discovery takes. -/
def discTakes (L : Loop) (n : Nat) : Bool := decide ((L.node n).state ≠ .absent ∧ (L.node n).state ≠ .isolated)

/-- R137: the next address in order, else the first of those restored behind. -/
def discPick (L : Loop) (d : Disc) : Option (Nat × Disc) :=
  match addresses.find? (fun n => decide (d.next ≤ n) && discTakes L n) with
  | some n => some (n, { d with next := n + 1, current := some n })
  | none =>
    match d.behind.find? (discTakes L) with
    | some n => some (n, { d with next := 33, current := some n, behind := d.behind.filter (fun m => decide (n < m)) })
    | none => none

/-- R137: the end of discovery: unreached nodes fail, in address order, and the loop goes to BROKEN or DEAD. -/
def discEnd (s : State) (l : Nat) (a : CtlAcc) (answered : Bool) : CtlAcc :=
  let L := a.u.L
  let a := a.setL { L with disc := none, state := if answered then .broken else .dead, repair := some (s.clock + 5000) }
  Acc.each a addresses (fun a n =>
    let nd := a.u.L.node n
    if nd.reach = .unreached ∧ nd.state ≠ .failed ∧ nd.state ≠ .absent ∧ nd.state ≠ .isolated then
      failNode s l a n .unreached
    else a)

/-- R137: discovery goes on to its next node, or ends. -/
def discNext (s : State) (l : Nat) (a : CtlAcc) : CtlAcc :=
  match a.u.L.disc with
  | none => a
  | some d =>
    match discPick a.u.L d with
    | some (n, d) => a.setL (({ a.u.L with disc := some d }).send .a (echoFrame n) (.discovery n))
    | none => discEnd s l a d.answered

/-- R137: a request in flight at the entry to PROBING is returned to its node; a JOIN of a JOINING or FAILED node is not
kept. -/
def returnRequest (l : Nat) (a : CtlAcc) (f : Option Flight) (s : State) : CtlAcc :=
  match f with
  | none => a
  | some f =>
    match f.work, f.reply with
    | .request n, true =>
      match (a.u.L.node n).state with
      | .waiting => setNodeState s l a n .ready
      | .joining | .failed => reMark (onNode a n (fun x => { x with out := none, retry := 0 })) n .join
      | .absent | .ready | .isolated => a
    | _, _ => a

/-- R135, R137: entry to PROBING, with discovery started. -/
def enterProbing (s : State) (l : Nat) (a : CtlAcc) : CtlAcc :=
  let fa := a.u.L.endA
  let fb := a.u.L.endB
  let L := a.u.L
  let a := Acc.say (a.setL { L with state := .probing, endA := none, endB := none, both := false }) (.attend .loopBroken)
  let a := returnRequest l (returnRequest l a fa s) fb s
  let L := a.u.L
  discNext s l (a.setL { L with disc := some { next := 1, current := none, behind := [], answered := false } })

/-- R135, R138: the loop goes to CLOSED; the Reach of every node becomes A. -/
def toClosed (L : Loop) : Loop :=
  let L := { L with state := .closed, endA := none, endB := none, both := false, missRun := 0, repair := none, repairDue := false }
  addresses.foldl (fun L n => L.setNode n { L.node n with reach := .a }) L

/-- R135: a pass-through miss of the frame on end A; at the second in a row the loop goes to PROBING. -/
def passMiss (s : State) (l : Nat) (a : CtlAcc) : CtlAcc :=
  let L := a.u.L
  let L := { L with missRun := L.missRun + 1, misses := satInc L.misses 1 }
  let L := { L with endA := L.endA.map (fun f => { f with pass := false }) }
  let a := a.setL L
  if 2 ≤ L.missRun then enterProbing s l a else a

/-! ### Choosing work (R145, R146) -/

/-- An item of work. -/
inductive Item where
  /-- A request kept by split discovery. -/
  | kept (n : Nat) (r : Request)
  | work (n : Nat) (m : Mark)
  | host (e : Entry)
deriving DecidableEq, Repr

/-- The poll period of a kind in ms (R144, Table 9.2). -/
def pollPeriod (p : Params) : NodeKind → Nat
  | .none => 0
  | .bay => p.bayPoll
  | .gas => 1000 * p.gasPoll
  | .fan => 1000 * p.fanPoll
  | .light => 1000 * p.lightPoll
  | .sign => 1000 * p.signPoll

/-- R144: an overdue POLL mark. -/
def overdue (s : State) (nd : Node) : Bool := decide (nd.pollDue + 2 * pollPeriod s.cfg.params nd.kind < s.clock)

/-- Table 9.3: the class of a mark. What puts the OUTPUT of a FAN node in class 1 is the Override State of the Air Unit, as R146
has it, and not the Fan Unit's override copy, which R112 names (log 63). -/
def markClass (s : State) (nd : Node) : Mark → Nat
  | .output => if nd.kind = .fan ∧ s.air.override ≠ .normal then 1 else 2
  | .poll => if overdue s nd then 2 else 6
  | .join => 3
  | .show => 5

/-- R134, R136, R145: a frame to the node is sent on A and then on B, and holds both ends. -/
def usesBoth (L : Loop) (nd : Node) : Bool :=
  decide (L.state ≠ .closed) && (decide (nd.state = .failed) || decide (nd.reach = .unreached))

/-- R145: the loop and the node allow an item for an end; `join` for a JOIN mark. -/
def nodeEligible (L : Loop) (nd : Node) (e : End) (join : Bool) : Bool :=
  let byState :=
    match nd.state with
    | .ready => true
    | .joining | .failed => join
    | .absent | .waiting | .isolated => false
  let byLoop :=
    match L.state with
    | .closed => decide (e = .a)
    | .broken => if usesBoth L nd then decide (e = .a) && L.bothFree else decide (nd.reach = endReach e)
    | .dead => join && (decide (nd.state = .failed) || decide (nd.state = .joining ∧ nd.reach = .unreached)) &&
        decide (e = .a) && L.bothFree
    | .idle | .probing => false
  byState && byLoop

/-- R145: a Busy Until that the Section Time has not reached. -/
def busyNow (s : State) (nd : Node) : Bool :=
  match nd.busy with
  | none => false
  | some b => decide (s.secs < b)

/-- The SHOW completion of node `n`, on its way from the controller of loop `l` to the Guidance Unit. -/
def Msg.completesShow (m : Msg) (l n : Nat) : Bool :=
  decide (m.src = .controller l ∧ m.dst = .guidance) &&
    (match m.body with
     | .showDone k _ _ => decide (k = n)
     | _ => false)

/-- R58, R62: the SHOW mark of a node is held back while the refresh timer of an enabled sign on the node runs, and until the
Guidance Unit has taken the completion that starts it (log 52). -/
def State.showHeld (s : State) (l n : Nat) : Bool :=
  (s.guid.signsOn l n).any (fun i => (s.guid.sign i).refresh.isSome) || s.chan.any (fun m => m.completesShow l n)

/-- The notice that BAY node `n` has ceased to be usable, on its way from the controller of loop `l` to the Occupancy Unit. -/
def Msg.losesBay (m : Msg) (l n : Nat) : Bool :=
  decide (m.src = .controller l ∧ m.dst = .occupancy) &&
    (match m.body with
     | .nodeNotice k old new => decide (k = n) && nodeUsable old && !nodeUsable new
     | _ => false)

/-- R36, R25: the OUTPUT mark of a BAY node is held back until the Occupancy Unit has taken every notice of the node's loss, which
makes its Reported Word absent: the first lamp MODIFY after a return is built after them (log 69). -/
def State.lampHeld (s : State) (l n : Nat) : Bool := s.chan.any (fun m => m.losesBay l n)

/-- R145, R146: a mark of loop `l` is eligible for an end in class `c`; a SHOW mark only once the Sign Interval is over (R58), and
the OUTPUT mark of a BAY node only once its losses have been taken (R36). -/
def markEligible (s : State) (l : Nat) (L : Loop) (e : End) (c n : Nat) (m : Mark) : Bool :=
  let nd := L.node n
  decide (markClass s nd m = c) && nodeEligible L nd e (decide (m = .join)) && !busyNow s nd &&
    nd.out.isNone && !(decide (m = .show) && s.showHeld l n) && !(decide (m = .output) && s.lampHeld l n)

/-- R145, R151: a Host Queue entry among the earliest is eligible for an end. -/
def entryEligible (L : Loop) (e : End) (x : Entry) : Bool :=
  let nd := L.node x.cur
  decide (nd.state = .ready) && nd.out.isNone && nodeEligible L nd e false

/-- R146: the kept requests offered in class `c`, in address order (log 53). -/
def keptItems (L : Loop) (e : End) (c : Nat) : List Item :=
  addresses.filterMap (fun n =>
    let nd := L.node n
    match nd.out with
    | none => none
    | some r =>
      if decide (nd.state = .ready) && decide (r.cls = c) && nodeEligible L nd e (decide (r.kind = 7)) then some (.kept n r)
      else none)

/-- R146: the items of class `c` of loop `l` eligible for an end, first to last. -/
def classItems (s : State) (l : Nat) (L : Loop) (q : List Entry) (e : End) (c : Nat) : List Item :=
  keptItems L e c ++
    (if c = 4 then ((earliest [] q).filter (entryEligible L e)).map .host
     else (L.order.filter (fun p => markEligible s l L e c p.1 p.2)).map (fun p => .work p.1 p.2))

/-- R146: the item an end of loop `l` takes, with its class. -/
def chooseItem (s : State) (l : Nat) (L : Loop) (q : List Entry) (e : End) : Option (Nat × Item) :=
  [1, 2, 3, 4, 5, 6].findSome? (fun c => (classItems s l L q e c).head?.map (fun i => (c, i)))

/-! ### Building and handing out a request (R130, R143, R152) -/

/-- The content of a SHOW built for a SIGN node (R58, R143): that of the sign in AUTO or BLANK mode which stands on the node by
the record in force at the Guidance Unit; where there is none, the content is free (log 20). -/
def showContent (s : State) (free l n : Nat) : List Byte :=
  match (s.guid.signsOn l n).find? (fun i => (s.guid.sign i).inForce.auto) with
  | some i => showBytes (signContent s.guid (s.guid.sign i).inForce)
  | none => (List.range 16).map (fun j => Config.freeByte (free + j))

/-- Table 9.1: the kind code and payload of a mark's work. -/
def buildWork (s : State) (free l n : Nat) (k : NodeKind) : Mark → Nat × List Byte
  | .poll => (1, [])
  | .join => (7, [])
  | .show => (4, showContent s free l n)
  | .output =>
    match k with
    | .bay =>
      let m := lampMasks s.occ l n
      (3, bytesOfNat 4 m.1.toNat ++ bytesOfNat 4 m.2.1.toNat ++ bytesOfNat 4 m.2.2.toNat)
    | .light => (2, (s.light.desired s.maps l n).map (fun v => BitVec.ofNat 8 v))
    | .none | .gas | .fan | .sign => (2, [BitVec.ofNat 8 (s.fan.setSpeed s.maps l n)])

/-- R130: the Sequence a request carries. -/
def seqFor (nd : Node) (kind : Nat) : Nat := if kind = 7 ∨ kind = 8 then 0 else nd.seq

/-- R130: a request handed to an end for node `n`, with its frame sent. -/
def handOut (s : State) (l : Nat) (a : CtlAcc) (e : End) (n : Nat) (r : Request) (retry : Nat) : CtlAcc :=
  let nd := a.u.L.node n
  let both := usesBoth a.u.L nd
  let a := onNode a n (fun x => { x with out := some r, retry := retry })
  let a := if nd.state = .ready then setNodeState s l a n .waiting else a
  let L := a.u.L.send e r.frame (.request n)
  a.setL { L with both := both }

/-- R143: a mark's work handed to an end. -/
def handMark (s : State) (l : Nat) (a : CtlAcc) (e : End) (c n : Nat) (m : Mark) : CtlAcc :=
  let nd := a.u.L.node n
  let w := buildWork s a.u.free l n nd.kind m
  let free := a.u.free + if m = .show then 16 else 0
  let a := a.setL (a.u.L.clearMark n m)
  let a := Acc.put a { a.u with free := free }
  let r : Request := { kind := w.1, frame := mkFrame n (controlByte w.1 (seqFor nd w.1)) w.2, source := .mark m, cls := c }
  handOut s l a e n r 0

/-- R152: a Host Queue entry handed to an end. At the first frame of the entry, when it has done no step, its Slot Status is
written ACTIVE; a later step of a sweep writes nothing, whatever its slot then shows. -/
def handEntry (s : State) (l : Nat) (a : CtlAcc) (e : End) (x : Entry) : CtlAcc :=
  let nd := a.u.L.node x.cur
  let a := a.onRing (fun r =>
    let r := r.put (r.u.setEntry l x { x with inHand := true })
    if x.steps ≠ 0 then r
    else (r.put (r.u.setSlot x.slot { r.u.slot x.slot with status := 2 })).say (.reflect (.slot x.slot)))
  let r : Request :=
    { kind := x.kind, frame := mkFrame x.cur (controlByte x.kind (seqFor nd x.kind)) x.payload, source := .host x.slot x.id, cls := 4 }
  handOut s l a e x.cur r 0

/-- R151: the two checks made when an entry is chosen: the (Slot Status, Detail) that ends it, if any. -/
def chosenCheck (s : State) (l : Nat) (x : Entry) : Option (Nat × Nat) :=
  if x.kind = 4 ∧ s.manualSign l x.cur = false then some (8, 2)
  else if x.kind = 5 ∧ x.force = false ∧ lastHead s.air l x.cur = true then some (11, 0)
  else none

/-- R146, R151: the scheduler hands a free end its work; an entry that its checks end sends no frame, and the scheduler
chooses again. -/
def dispatch (s : State) (l : Nat) (e : End) : Nat → CtlAcc → CtlAcc
  | 0, a => a
  | k + 1, a =>
    match chooseItem s l a.u.L (a.u.ring.queue l) e with
    | none => a
    | some (_, .kept n r) => handOut s l a e n r (a.u.L.node n).retry
    | some (c, .work n m) => handMark s l a e c n m
    | some (_, .host x) =>
      match chosenCheck s l x with
      | some (st, d) => dispatch s l e k (a.onRing (fun r => completeEntry r l x st d))
      | none => handEntry s l a e x

/-- R145, R146: an end may be handed work now: it is free, no repair test is due, and end A has chosen first. -/
def mayDispatch (s : State) (l : Nat) (e : End) : Bool :=
  let L := s.loop l
  L.endFree e && !L.repairDue &&
    (match e with
     | .a => true
     | .b => !L.endFree .a || (chooseItem s l L (s.ring.queue l) .a).isNone)

/-- R146: a dispatch at end `e` of loop `l`. -/
def loopDispatch (s : State) (l : Nat) (e : End) : State :=
  s.withCtl l (fun a => dispatch s l e ((a.u.ring.queue l).length + 1) a)

/-! ### Frames sent and received (R126, R130, R131) -/

/-- R126, R130: the last byte of the frame on end `e` leaves the part. -/
def frameSent (s : State) (l : Nat) (e : End) : State :=
  s.withCtl l (fun a =>
    match a.u.L.flight e with
    | none => a
    | some f =>
      if f.timer.isSome then a
      else
        let L := a.u.L.setFlight e (some { f with timer := some (s.clock + s.cfg.params.replyTimeout) })
        let L := { L with framesSent := satInc L.framesSent 1 }
        a.setL (match e with
          | .a => { L with lastA := f.frame }
          | .b => L))

/-- R129: delivers the content of a reply to the owning unit: every DONE reply of POLL, SET, MODIFY and SHOW, and the
completion of an internal SET, MODIFY or SHOW with another status, but for NODE_BUSY, which completes nothing (OUT_OF_STEP
does not come here). -/
def deliver (l : Nat) (a : CtlAcc) (n : Nat) (r : Request) (status : Byte) (p : List Byte) : CtlAcc :=
  let k := (a.u.L.node n).kind
  let free := a.u.free
  let done := decide (status = 0)
  let told := done || (decide (status ≠ 4) && (match r.source with | .mark _ => true | .host _ _ => false))
  let sent := framePayload r.frame
  if r.kind = 1 then
    if done then
      match k with
      | .bay => tellOwner l a k (.bayPoll n (BitVec.ofNat 16 (reply16 free p 1)) (BitVec.ofNat 16 (reply16 free p 3))
          (BitVec.ofNat 32 (reply32 free p 5)))
      | .gas => tellOwner l a k (.gasPoll n (reply16 free p 1) (reply16 free p 3) (replyByte free p 5))
      | .fan => tellOwner l a k (.fanPoll n (replyByte free p 1) (replyByte free p 2).toNat)
      | .light => tellOwner l a k (.lightPoll n ((List.range 4).map (fun i => (replyByte free p (i + 1)).toNat)))
      | .sign => tellOwner l a k (.signPoll n (replyByte free p 1))
      | .none => a
    else a
  else if !told then a
  else if r.kind = 2 then
    (if k = .light then tellOwner l a k (.lightSet n status (sent.map (fun b => b.toNat)))
     else tellOwner l a k (.fanSet n status))
  else if r.kind = 3 then
    tellOwner l a k (.modify n status (if done then BitVec.ofNat 32 (reply32 free p 1) else 0))
  else if r.kind = 4 then tellOwner l a k (.showDone n status sent)
  else a

/-- R144: a POLL that ends with a valid reply of any status other than NODE_BUSY. -/
def pollEnds (s : State) (a : CtlAcc) (n : Nat) : CtlAcc :=
  let a := a.setL (a.u.L.clearMark n .poll)
  onNode a n (fun x => { x with pollDue := s.clock + pollPeriod s.cfg.params x.kind, pollTaken := false })

/-- R131: the request of a node ends with a valid reply: Next Sequence advances when `step`, and the node goes to READY. -/
def requestEnds (s : State) (l : Nat) (a : CtlAcc) (n : Nat) (step : Bool) : CtlAcc :=
  let a := onNode a n (fun x => { x with seq := if step then (x.seq + 1) % 8 else x.seq, retry := 0, out := none })
  setNodeState s l a n .ready

/-- R131: a valid reply to a request other than JOIN. `p` is the reply's payload, its first byte the status. -/
def replyEnds (s : State) (l : Nat) (a : CtlAcc) (n : Nat) (r : Request) (status : Byte) (p : List Byte) : CtlAcc :=
  let rest := p.drop 1
  if r.kind = 8 then
    let a := requestEnds s l a n false
    match r.source with
    | .host slot id => hostEnds l a slot id n (.done rest)
    | .mark _ => a
  else
    let a := if r.kind = 1 ∧ status ≠ 4 then pollEnds s a n else a
    if status = 6 then
      let a := reMark (dropRequest l a n 6 1) n .join
      setNodeState s l a n .joining
    else
      let a := deliver l a n r status p
      let a := requestEnds s l a n true
      match r.source with
      | .host slot id => hostEnds l a slot id n (if status = 0 then .done rest else .ended 4 status.toNat)
      | .mark m =>
        if status = 4 then onNode (reMark a n m) n (fun x => { x with busy := some (s.secs + 1) }) else a

/-- R134, R136: an answered probe, or an answered JOIN of an UNREACHED node, takes a DEAD loop to BROKEN. -/
def revive (a : CtlAcc) : CtlAcc :=
  if a.u.L.state = .dead then (let L := a.u.L; a.setL { L with state := .broken }) else a

/-- R133, R134: a valid JOIN reply that came on end `e`. The probe of a FAILED node takes a DEAD loop to BROKEN by a DONE reply
with the Configured Kind alone, the JOIN of an UNREACHED node by any reply (log 44). -/
def joinEnds (s : State) (l : Nat) (a : CtlAcc) (n : Nat) (e : End) (status : Byte) (kind : Byte) : CtlAcc :=
  let nd := a.u.L.node n
  let kindCode : Nat :=
    match nd.kind with
    | .none => 0
    | .bay => 1
    | .gas => 2
    | .fan => 3
    | .light => 4
    | .sign => 5
  let lost := decide (nd.reach = .unreached)
  let a := onNode a n (fun x => { x with out := none })
  if status = 0 ∧ kind.toNat = kindCode then
    let a := onNode a n (fun x => { x with seq := 1, retry := 0, cause := .none, reach := endReach e,
                                           probeDue := if nd.state = .failed then s.secs + 10 else x.probeDue })
    let a := setNodeState s l a n .ready
    if decide (nd.state = .failed) || lost then revive a else a
  else if nd.state = .failed then
    onNode a n (fun x => { x with cause := if status = 0 then .mismatch else x.cause, probeDue := s.secs + 10,
                                  probeTaken := false })
  else
    let a := if lost then revive (onNode a n (fun x => { x with reach := endReach e })) else a
    if status = 0 then failNode s l a n .mismatch
    else
      let a := onNode (reMark a n .join) n (fun x => { x with busy := some (s.secs + 1) })
      if nd.state = .waiting then setNodeState s l a n .ready else a

/-- R130, R131, R133, R136, R137: a valid reply to the frame in flight on end `e`. -/
def validReply (s : State) (l : Nat) (a : CtlAcc) (e : End) (w : Work) (p : List Byte) : CtlAcc :=
  let status := replyByte a.u.free p 0
  match w with
  | .discovery n =>
    let L := a.u.L.setFlight e none
    let L := { L with disc := L.disc.map (fun d => { d with answered := true }) }
    let a := onNode (a.setL L) n (fun x => { x with reach := endReach e })
    discNext s l a
  | .request n =>
    let nd := a.u.L.node n
    let a := a.setL (a.u.L.release e)
    match nd.out with
    | none => a
    | some r =>
      let a :=
        if r.kind = 7 then joinEnds s l a n e status (replyByte a.u.free p 1)
        else
          let a := if nd.reach = .unreached then onNode a n (fun x => { x with reach := endReach e }) else a
          replyEnds s l a n r status p
      Acc.put a { a.u with free := a.u.free + 16 }
  | .startTest | .repairTest | .abandoned => a

/-- R130: a reply matches the frame in flight on an end. -/
def matchesFlight (f : Flight) (x : Received) : Bool :=
  f.reply && decide (x.control = (f.frame.getD 1 0).toNat) &&
    (match f.work with
     | .request n | .discovery n => decide (x.addr = n + 128)
     | .startTest | .repairTest | .abandoned => false)

/-- R130: a well-formed frame with an Address of 128 or above, taken as a reply at end `e`. -/
def takeReply (s : State) (l : Nat) (a : CtlAcc) (e : End) (x : Received) : CtlAcc :=
  let stale : CtlAcc := (let L := a.u.L; a.setL { L with stale := satInc L.stale 1 })
  match a.u.L.flight e with
  | none => stale
  | some f => if matchesFlight f x then validReply s l a e f.work x.payload else stale

/-- A pass-through test is in flight (R126). -/
def Loop.testing (L : Loop) : Bool :=
  match L.endA with
  | none => false
  | some f => decide (f.work = .startTest ∨ f.work = .repairTest)

/-- R135, R138: a frame at end B that equals the frame last sent on A. -/
def takePass (a : CtlAcc) : CtlAcc :=
  match a.u.L.endA with
  | none => a
  | some f =>
    if !(f.pass && f.timer.isSome) then a
    else if a.u.L.testing then a.setL (toClosed a.u.L)
    else
      let L := { a.u.L with missRun := 0 }
      a.setL (if !f.reply && decide (f.work ≠ .abandoned) then { L with endA := none }
        else { L with endA := some { f with pass := false } })

/-- R126: a frame received on end `e`. -/
def frameIn (s : State) (l : Nat) (e : End) (bytes : List Byte) : State :=
  s.withCtl l (fun a =>
    match parseFrame bytes with
    | none => let L := a.u.L; a.setL { L with checkErrors := satInc L.checkErrors 1 }
    | some x =>
      if decide (e = .b) && (decide (a.u.L.state = .closed) || a.u.L.testing) then
        (if x.whole = a.u.L.lastA then takePass a else a)
      else if 128 ≤ x.addr then takeReply s l a e x else a)

/-! ### Timeouts (R132, R134 to R138) -/

/-- The frame in flight on an end whose timer has run out. -/
def Loop.dueFlight (L : Loop) (s : State) (e : End) : Option Flight :=
  match L.flight e with
  | none => none
  | some f => if s.due f.timer then some f else none

/-- Timeouts rises by 1. -/
def countTimeout (a : CtlAcc) : CtlAcc := let L := a.u.L; a.setL { L with timeouts := satInc L.timeouts 1 }

/-- The ends of a request that has ended without a reply. -/
def freeEnds (a : CtlAcc) (e : End) : CtlAcc :=
  let L := a.u.L.setFlight e none
  a.setL { L with both := false }

/-- R134, R136: the frame sent again on end B, both ends held. -/
def secondLeg (a : CtlAcc) (f : Flight) : CtlAcc := a.setL ((a.u.L.setFlight .a none).send .b f.frame f.work)

/-- R132: the reply timeout of a request of node `n`, its pass-through outcome already known. Each frame of a pair sent on A
and then on B counts in Timeouts (log 56). -/
def requestTimeout (s : State) (l : Nat) (a : CtlAcc) (e : End) (n : Nat) (f : Flight) : CtlAcc :=
  let nd := a.u.L.node n
  let a := countTimeout a
  if a.u.L.both && decide (e = .a) then secondLeg a f
  else if nd.state = .failed then
    let a := freeEnds a e
    onNode a n (fun x => { x with out := none, probeDue := s.secs + 10, probeTaken := false })
  else if nd.retry < 3 then
    let a := onNode a n (fun x => { x with retry := x.retry + 1 })
    let e' := if a.u.L.both then End.a else e
    a.setL ((a.u.L.setFlight e none).send e' f.frame f.work)
  else failNode s l (freeEnds a e) n .timeout

/-- R132, R134, R135: a request's timer has run out on end `e`. In CLOSED an open pass-through is a miss first; at the
second miss in a row the timeout is not counted and the request is returned. -/
def timeoutAt (s : State) (l : Nat) (e : End) (n : Nat) (f : Flight) (a : CtlAcc) : CtlAcc :=
  let a := if f.pass then passMiss s l a else a
  if a.u.L.state = .probing then a else requestTimeout s l a e n f

/-- The request whose reply timeout has run out on end `e`: its node and frame. -/
def dueRequest (s : State) (l : Nat) (e : End) : Option (Nat × Flight) :=
  match (s.loop l).dueFlight s e with
  | none => none
  | some f =>
    match f.work, f.reply with
    | .request n, true => some (n, f)
    | _, _ => none

/-- R132: REPLY_TIMEOUT, of a request that is not the probe of a FAILED node. -/
def replyTimeout (s : State) (l : Nat) (e : End) : State :=
  match dueRequest s l e with
  | none => s
  | some (n, f) =>
    if ((s.loop l).node n).state = .failed then s else s.withCtl l (timeoutAt s l e n f)

/-- R134, R136: PROBE_TIMEOUT, of the probe of a FAILED node, or of the first frame of a pair sent as a probe is. -/
def probeTimeout (s : State) (l : Nat) (e : End) : State :=
  match dueRequest s l e with
  | none => s
  | some (n, f) =>
    if ((s.loop l).node n).state = .failed ∨ ((s.loop l).both = true ∧ e = .a) then s.withCtl l (timeoutAt s l e n f) else s

/-- R135: PASS_THROUGH_MISS. -/
def passTimeout (s : State) (l : Nat) : State :=
  match (s.loop l).dueFlight s .a with
  | none => s
  | some f =>
    if decide ((s.loop l).state = .closed) && f.pass then
      s.withCtl l (fun a =>
        let a := passMiss s l a
        if a.u.L.state = .closed ∧ f.reply = false ∧ f.work ≠ .abandoned then a.setL (a.u.L.setFlight .a none) else a)
    else s

/-- R135: START_TEST_TIMEOUT. -/
def startTestTimeout (s : State) (l : Nat) : State :=
  match (s.loop l).dueFlight s .a with
  | none => s
  | some f =>
    if f.work = .startTest then
      s.withCtl l (fun a => let L := a.u.L; enterProbing s l (a.setL { L with misses := satInc L.misses 1 }))
    else s

/-- R138: REPAIR_TEST_TIMEOUT; the next test is due 5 s after this event (log 54). -/
def repairTestTimeout (s : State) (l : Nat) : State :=
  match (s.loop l).dueFlight s .a with
  | none => s
  | some f =>
    if f.work = .repairTest then
      s.withCtl l (fun a =>
        let L := a.u.L
        a.setL { L with endA := none, both := false, misses := satInc L.misses 1, repair := some (s.clock + 5000) })
    else s

/-- R137: DISCOVERY_ECHO_TIMEOUT on end A sends the ECHO on B; on B the node is marked UNREACHED. -/
def discoveryTimeout (s : State) (l : Nat) : State :=
  match (s.loop l).dueFlight s .a, (s.loop l).dueFlight s .b with
  | some f, _ =>
    (match f.work with
     | .discovery _ => s.withCtl l (fun a => secondLeg a f)
     | .startTest | .repairTest | .request _ | .abandoned => s)
  | none, some f =>
    (match f.work with
     | .discovery n =>
       s.withCtl l (fun a => discNext s l (onNode (a.setL (a.u.L.setFlight .b none)) n (fun x => { x with reach := .unreached })))
     | .startTest | .repairTest | .request _ | .abandoned => s)
  | none, none => s

/-- Discovery has no frame in flight. -/
def Loop.discIdle (L : Loop) : Bool :=
  let isDisc (f : Option Flight) : Bool :=
    match f with
    | none => false
    | some f => (match f.work with | .discovery _ => true | .startTest | .repairTest | .request _ | .abandoned => false)
  !isDisc L.endA && !isDisc L.endB

/-- R139, R140: ABANDONED_FRAME_TIMEOUT: the end is free; discovery or the start test that waited for it goes on. -/
def abandonedTimeout (s : State) (l : Nat) (e : End) : State :=
  match (s.loop l).dueFlight s e with
  | none => s
  | some f =>
    if f.work = .abandoned then
      s.withCtl l (fun a =>
        let a := if f.pass then passMiss s l a else a
        if a.u.L.state = .probing ∧ (s.loop l).state ≠ .probing then a
        else
          let a := a.setL (a.u.L.setFlight e none)
          if decide (a.u.L.state = .probing) && a.u.L.discIdle then discNext s l a else CtlAcc.setL a (startTest a.u.L))
    else s

/-! ### Timers of nodes and of the repair test -/

/-- R134: PROBE_DUE. -/
def probeDueNow (s : State) (l n : Nat) : Bool :=
  let nd := (s.loop l).node n
  decide (nd.state = .failed) && !nd.probeTaken && decide (nd.probeDue ≤ s.secs)

/-- R134: the JOIN mark of a probe. -/
def probeMark (s : State) (l n : Nat) : State :=
  s.withCtl l (fun a => onNode (reMark a n .join) n (fun x => { x with probeTaken := true }))

/-- R144: NEXT_POLL_DUE. -/
def pollDueNow (s : State) (l n : Nat) : Bool :=
  let nd := (s.loop l).node n
  nodeUsable nd.state && !nd.pollTaken && decide (nd.pollDue ≤ s.clock)

/-- R144: the POLL mark of a poll that is due. -/
def pollMark (s : State) (l n : Nat) : State :=
  s.withCtl l (fun a => onNode (reMark a n .poll) n (fun x => { x with pollTaken := true }))

/-- R145: Busy Until has been reached. -/
def busyReached (s : State) (l n : Nat) : Bool :=
  match ((s.loop l).node n).busy with
  | none => false
  | some b => decide (b ≤ s.secs)

/-- R145: Busy Until becomes none. -/
def busyEnds (s : State) (l n : Nat) : State := s.withCtl l (fun a => onNode a n (fun x => { x with busy := none }))

/-- R138: a repair test is due. -/
def repairDueNow (s : State) (l : Nat) : Bool := s.due (s.loop l).repair

/-- R138: no new frame is handed to either end until the test has been sent. -/
def repairWaits (s : State) (l : Nat) : State :=
  s.withCtl l (fun a => let L := a.u.L; a.setL { L with repair := none, repairDue := true })

/-- R138: the repair test is sent. -/
def repairSend (s : State) (l : Nat) : State :=
  s.withCtl l (fun a => let L := a.u.L; a.setL ({ L with repairDue := false }.sendTest .repairTest))

/-! ### Loop commands (Section 8.7) -/

/-- A flight abandoned: its end is held until its timer has run out, and its reply is discarded as stale. -/
def Flight.abandon (f : Flight) (keepPass : Bool) : Flight :=
  { f with work := .abandoned, reply := false, pass := f.pass && keepPass }

/-- R139: step 1, the host requests of the loop complete ABORTED with detail 3. -/
def abortQueue (l : Nat) (a : RingAcc) : RingAcc := a.each (a.u.queue l) (fun a e => completeEntry a l e 6 3)

/-- R139: steps 2 and 3 at one node. The host requests have completed already. -/
def resetNode (s : State) (l : Nat) (a : CtlAcc) (n : Nat) : CtlAcc :=
  let nd := a.u.L.node n
  if nd.state = .absent ∨ nd.state = .isolated then a
  else
    let a := onNode (reMark a n .join) n (fun x => { x with out := none, retry := 0, busy := none })
    setNodeState s l a n .joining

/-- R139: step 2, an internal request in flight or kept is dropped with its mark set again. -/
def dropInternal (a : CtlAcc) (n : Nat) : CtlAcc :=
  match (a.u.L.node n).out with
  | none => a
  | some r =>
    match r.source with
    | .mark m => reMark a n m
    | .host _ _ => a

/-- R139: the controller's part of LOOP_RESET. The marks of the dropped internal requests are set again in address order,
before every JOIN mark (log 57). -/
def resetLoop (s : State) (l : Nat) (a : CtlAcc) : CtlAcc :=
  let a := a.onRing (abortQueue l)
  let a := Acc.each a addresses dropInternal
  let a := Acc.each a addresses (resetNode s l)
  let L := a.u.L
  CtlAcc.setL a (startTest { L with state := .idle, endA := L.endA.map (fun f => f.abandon false),
                                    endB := L.endB.map (fun f => f.abandon false), both := false, repair := none,
                                    repairDue := false, disc := none })

/-- R139: the outcomes of host steps of loop `l` still on their way are of entries that LOOP_RESET has ended (log 28). -/
def purgeSteps (l : Nat) (ms : List Msg) : List Msg :=
  ms.filter (fun m => decide (m.src ≠ .controller l ∨ m.dst ≠ .ring))

/-- R139: LOOP_RESET of loop `l`. -/
def loopReset (s : State) (l : Nat) : State := State.withCtl { s with chan := purgeSteps l s.chan } l (resetLoop s l)

/-- The flight on an end that serves node `n` and waits for a reply is abandoned. -/
def abandonFor (n : Nat) (f : Flight) : Flight :=
  if decide (f.work = .request n ∨ f.work = .discovery n) && f.reply then f.abandon true else f

/-- A flight on an end serves node `n` and waits for a reply. -/
def Loop.serves (L : Loop) (n : Nat) : Bool :=
  let mine (f : Option Flight) : Bool :=
    match f with
    | none => false
    | some f => decide (f.work = .request n) && f.reply
  mine L.endA || mine L.endB

/-- R140: a node is isolated. -/
def isolateNode (s : State) (l n : Nat) : State :=
  s.withCtl l (fun a =>
    let L := a.u.L
    let nd := L.node n
    let a := a.setL { L with endA := L.endA.map (abandonFor n), endB := L.endB.map (abandonFor n),
                             both := L.both && !L.serves n }
    let a :=
      match nd.out with
      | none => a
      | some r =>
        match r.source with
        | .mark m => reMark a n m
        | .host _ id =>
          a.onRing (fun x =>
            match x.u.entry l id with
            | none => x
            | some e => completeEntry x l e 6 2)
    setNodeState s l (onNode a n (fun x => { x with out := none, retry := 0 })) n .isolated)

/-- An address placed in an ordered list of addresses, once. -/
def insertAddr (n : Nat) (xs : List Nat) : List Nat :=
  if n ∈ xs then xs else xs.filter (fun m => decide (m < n)) ++ n :: xs.filter (fun m => decide (n < m))

/-- R141: a restored node whose address discovery has passed is taken behind the last one. -/
def Disc.restore (d : Disc) (n : Nat) : Disc := if d.next ≤ n then d else { d with behind := insertAddr n d.behind }

/-- R141: an ISOLATED node is restored. -/
def restoreNode (s : State) (l n : Nat) : State :=
  s.withCtl l (fun a =>
    let L := a.u.L
    let reach (r : Reach) : Reach :=
      match L.state with
      | .closed => .a
      | .broken | .dead | .probing => .unreached
      | .idle => r
    let a := a.setL { L with disc := L.disc.map (fun d => d.restore n) }
    let a := onNode (reMark a n .join) n (fun x => { x with reach := reach x.reach })
    setNodeState s l a n .joining)

/-- R135: entry to RUN of loop `l`. -/
def State.loopEnterRun (s : State) (l : Nat) : State := s.withCtl l (fun a => a.setL (startTest a.u.L))

/-! ### The commands -/

/-- END_DISPATCH (R146). -/
def execEndDispatch (l : Fin 4) (e : End) (s : State) : Host.Outcome State Fault Refusal :=
  goOn (s.when_ (mayDispatch s l e) (fun s => loopDispatch s l e))

/-- FRAME_SENT (R126). -/
def execFrameSent (l : Fin 4) (e : End) (s : State) : Host.Outcome State Fault Refusal := goOn (frameSent s l e)

/-- FRAME_RECEIVED (R126). -/
def execFrameReceived (l : Fin 4) (e : End) (bytes : List Byte) (s : State) : Host.Outcome State Fault Refusal :=
  goOn (frameIn s l e bytes)

/-- REPLY_TIMEOUT (R132). -/
def execReplyTimeout (l : Fin 4) (e : End) (s : State) : Host.Outcome State Fault Refusal := goOn (replyTimeout s l e)

/-- PASS_THROUGH_MISS (R135). -/
def execPassThroughMiss (l : Fin 4) (s : State) : Host.Outcome State Fault Refusal := goOn (passTimeout s l)

/-- START_TEST_TIMEOUT (R135). -/
def execStartTestTimeout (l : Fin 4) (s : State) : Host.Outcome State Fault Refusal := goOn (startTestTimeout s l)

/-- DISCOVERY_ECHO_TIMEOUT (R137). -/
def execDiscoveryEchoTimeout (l : Fin 4) (s : State) : Host.Outcome State Fault Refusal := goOn (discoveryTimeout s l)

/-- PROBE_DUE (R134). -/
def execProbeDue (l : Fin 4) (n : Nat) (s : State) : Host.Outcome State Fault Refusal :=
  goOn (s.when_ (probeDueNow s l n) (fun s => probeMark s l n))

/-- PROBE_TIMEOUT (R134). -/
def execProbeTimeout (l : Fin 4) (e : End) (s : State) : Host.Outcome State Fault Refusal := goOn (probeTimeout s l e)

/-- REPAIR_TEST_DUE (R138). -/
def execRepairTestDue (l : Fin 4) (s : State) : Host.Outcome State Fault Refusal :=
  goOn (s.when_ (repairDueNow s l) (fun s => repairWaits s l))

/-- REPAIR_TEST_SEND (R138). -/
def execRepairTestSend (l : Fin 4) (s : State) : Host.Outcome State Fault Refusal :=
  goOn (s.when_ ((s.loop l).repairDue && (s.loop l).bothFree) (fun s => repairSend s l))

/-- REPAIR_TEST_TIMEOUT (R138). -/
def execRepairTestTimeout (l : Fin 4) (s : State) : Host.Outcome State Fault Refusal := goOn (repairTestTimeout s l)

/-- NEXT_POLL_DUE (R144). -/
def execNextPollDue (l : Fin 4) (n : Nat) (s : State) : Host.Outcome State Fault Refusal :=
  goOn (s.when_ (pollDueNow s l n) (fun s => pollMark s l n))

/-- BUSY_UNTIL_REACHED (R145). -/
def execBusyUntilReached (l : Fin 4) (n : Nat) (s : State) : Host.Outcome State Fault Refusal :=
  goOn (s.when_ (busyReached s l n) (fun s => busyEnds s l n))

/-- ABANDONED_FRAME_TIMEOUT (R139, R140). -/
def execAbandonedFrameTimeout (l : Fin 4) (e : End) (s : State) : Host.Outcome State Fault Refusal :=
  goOn (abandonedTimeout s l e)

end Sys2Proof.Machine
end

