-- ==== Sys2Proof/Machine/PartFields.lean ====
section
/-! DEFINITION. The part-owned fields as they stand: their codes and the bytes that the Reflect Engine copies (Tables 1.2
to 1.8, 9.4, 9.5). -/

namespace Sys2Proof.Machine

/-! ### Codes -/

/-- Bay State (Table 1.5). -/
def bayCode : BayState → Nat
  | .disabled => 0
  | .closed => 1
  | .unknown => 2
  | .free => 3
  | .occupied => 4

/-- Guidance State (Table 1.2). -/
def gstateCode : GState → Nat
  | .opened => 0
  | .full => 1
  | .closed => 2

/-- Sign Status (Table 1.8). -/
def signCode : SignStatus → Nat
  | .ok => 0
  | .pending => 1
  | .failed => 2

/-- Channel Status (Table 1.6). -/
def chanCode : ChanStatus → Nat
  | .unassigned => 0
  | .ok => 1
  | .unknown => 2

/-- Fan State (Table 1.4). -/
def fanCode : FanState → Nat
  | .stopped => 0
  | .queued => 1
  | .starting => 2
  | .running => 3
  | .stopping => 4
  | .fault => 5
  | .isolated => 6

/-- Last Fault Cause (Table 1.4). -/
def fanCauseCode : FanCause → Nat
  | .none => 0
  | .startTimeout => 1
  | .stopTimeout => 2
  | .driveFault => 3
  | .nodeFailed => 4
  | .runLost => 5

/-- One byte of a number. -/
def byte1 (n : Nat) : Byte := BitVec.ofNat 8 n

/-- A bit at a place of a byte. -/
def bitVal (b : Bool) (k : Nat) : Nat := if b then 2 ^ k else 0

/-- Bytes placed from an offset upward. -/
def placed (off : Nat) (bs : List Byte) : List (Nat × Byte) := bs.zipIdx.map (fun p => (off + p.2, p.1))

/-! ### Marks and Verdicts -/

/-- The marks and Verdict of a record. -/
def Capture.mark (c : Capture) (t : Table) (i : Nat) : RecMarks := Tab.get RecMarks.init c.marks (recKey t i)

/-- Those marks replaced. -/
def Capture.setMark (c : Capture) (t : Table) (i : Nat) (m : RecMarks) : Capture :=
  { c with marks := Tab.set RecMarks.init c.marks (recKey t i) m }

/-- The Verdict byte of a record. -/
def State.verdict (s : State) (t : Table) (i : Nat) : Byte := byte1 (s.capture.mark t i).verdict

/-! ### The copy of a record's part-owned fields (R163) -/

/-- ZONE bytes 32 to 52 and 56 to 59. -/
def zoneBytes (s : State) (z : Nat) : List (Nat × Byte) :=
  let a := Tab.get AZone.init s.air.zones z
  let o := Tab.get OccZone.init s.occ.zones z
  let g := Tab.get GZone.init s.guid.zones z
  let r := g.reasons
  placed 32
    ([byte1 a.stage, byte1 a.gasDemand, byte1 a.trafficDemand, byte1 (bitVal a.gasUnknown 0 + bitVal a.noHeads 1)] ++
      bytesOfNat 2 a.co ++ bytesOfNat 2 a.no2 ++ bytesOfNat 2 o.general ++ bytesOfNat 2 o.accessible ++
      bytesOfNat 2 o.charging ++ bytesOfNat 2 g.holds ++ bytesOfNat 2 o.unknown ++
      [byte1 (gstateCode g.gstate),
       byte1 (bitVal r.host 0 + bitVal r.air 1 + bitVal r.override 2 + bitVal r.fault 3 + bitVal r.disabled 4),
       s.verdict .zone z]) ++
  placed 56 (bytesOfNat 4 a.since.toNat)

/-- GROUP bytes 32 to 36. -/
def groupBytes (s : State) (g : Nat) : List (Nat × Byte) :=
  let x := Tab.get GroupU.init s.fan.groups g
  placed 32 [byte1 x.stage, byte1 x.running, byte1 x.lead, byte1 (bitVal x.short 0), s.verdict .group g]

/-- FAN bytes 8 to 18. -/
def fanBytes (s : State) (f : Nat) : List (Nat × Byte) :=
  let x := Tab.get FanU.init s.fan.fans f
  placed 8 ([byte1 (fanCode x.state), s.verdict .fan f, byte1 x.command, byte1 x.reported] ++
    bytesOfNat 4 x.runSeconds.toNat ++ bytesOfNat 2 x.starts.toNat ++ [byte1 (fanCauseCode x.cause)])

/-- BAY bytes 8 to 15. -/
def bayBytes (s : State) (i : Nat) : List (Nat × Byte) :=
  let x := Tab.get BayU.init s.occ.bays i
  placed 8 ([byte1 (bayCode x.state), s.verdict .bay i] ++ bytesOfNat 4 x.lastChange.toNat ++ bytesOfNat 2 x.arrivals.toNat)

/-- CHANNEL bytes 10 to 13. -/
def channelBytes (s : State) (i : Nat) : List (Nat × Byte) :=
  let x := Tab.get LChan.init s.light.chans i
  placed 10 [byte1 x.level, byte1 (chanCode x.status), byte1 x.routes, s.verdict .channel i]

/-- GATE bytes 40 to 48. -/
def gateBytes (s : State) (g : Nat) : List (Nat × Byte) :=
  let x := Tab.get GGate.init s.guid.gates g
  placed 40 ([byte1 x.lastTarget, byte1 (bitVal x.full 0 + bitVal x.queue 1)] ++ bytesOfNat 2 x.entries.toNat ++
    bytesOfNat 2 x.unguided.toNat ++ bytesOfNat 2 x.exits.toNat ++ [s.verdict .gate g])

/-- SIGN bytes 24 to 45. -/
def signBytes (s : State) (i : Nat) : List (Nat × Byte) :=
  let x := Tab.get GSign.init s.guid.signs i
  placed 24 ((List.range 4).flatMap (fun l =>
      let y := x.shown.getD l Shown.blank
      bytesOfNat 2 y.value ++ [byte1 y.arrow, byte1 y.text]) ++
    [byte1 (signCode x.status), s.verdict .sign i] ++ bytesOfNat 4 x.lastShow.toNat)

/-- Ring header bytes 2 to 7. -/
def headerBytes (s : State) : List (Nat × Byte) :=
  placed 2 (bytesOfNat 2 s.ring.fetch.toNat ++ bytesOfNat 2 s.ring.completed.toNat ++
    [byte1 (bitVal s.ring.overrun 0), byte1 s.ring.index])

/-- Slot bytes 24 to 28 and 32 to 47. -/
def slotBytes (s : State) (i : Nat) : List (Nat × Byte) :=
  let x := Tab.get Slot.init s.ring.slots i
  placed 24 [byte1 x.status, byte1 x.detail, byte1 x.replyLen, byte1 x.notDone, byte1 x.lastNode] ++
  placed 32 ((List.range 16).map (fun j => x.reply.getD j 0))

/-- R163: the part-owned fields of a record as they stand, as (offset, byte). -/
def State.partBytes (s : State) : RecName → List (Nat × Byte)
  | .record .zone i => zoneBytes s i
  | .record .group i => groupBytes s i
  | .record .fan i => fanBytes s i
  | .record .bay i => bayBytes s i
  | .record .channel i => channelBytes s i
  | .record .gate i => gateBytes s i
  | .record .sign i => signBytes s i
  | .header => headerBytes s
  | .slot i => slotBytes s i

/-! ### Bursts of the part (R161, R163) -/

/-- The words (offset / 4) that hold bytes of a copy, in order, each once. -/
def wordsOf (bs : List (Nat × Byte)) : List Nat :=
  bs.foldl (fun ws p => if p.1 / 4 ∈ ws then ws else ws ++ [p.1 / 4]) []

/-- The largest of 8, 4, 2 and 1 beats that `n` words allow. -/
def burstSize (n : Nat) : Nat := if 8 ≤ n then 8 else if 4 ≤ n then 4 else if 2 ≤ n then 2 else 1

/-- Length of the run of consecutive words at the head of a list. -/
def runLength : List Nat → Nat
  | [] => 0
  | [_] => 1
  | w :: v :: ws => if v = w + 1 then runLength (v :: ws) + 1 else 1

/-- Words cut into bursts, run by run. -/
def cutWords : Nat → List Nat → List (List Nat)
  | 0, _ => []
  | _, [] => []
  | k + 1, ws =>
    let n := burstSize (runLength ws)
    ws.take n :: cutWords k (ws.drop n)

/-- R163: the bursts that write a copy, in address order. -/
def burstsOf (bs : List (Nat × Byte)) : List (List (Nat × Byte)) :=
  let ws := wordsOf bs
  (cutWords ws.length ws).map (fun g => bs.filter (fun p => decide (p.1 / 4 ∈ g)))

end Sys2Proof.Machine
end

