-- ==== Sys2Proof/Machine/MemoryPath.lean ====
section
/-! DEFINITION. The memory path (Chapters 1 and 10): host beats, the Guard Map, the Lane Filter, Table Capture, the Reflect
Engine and the Memory Port Arbiter. -/

namespace Sys2Proof.Machine

/-! ### The port (R155, R165) -/

/-- R165: the part has work of its own that waits for the Memory Port. -/
def State.partWork (s : State) : Bool :=
  (decide (s.mode = .run) && (s.reflect.current.isSome || !s.reflect.list.isEmpty)) || s.fetchWaits ||
    (decide (s.mode = .building) && decide (s.build.stage < 9))

/-- A beat arrives: the first of a burst begins with no grant and no snapshot of its own. -/
def State.beginBeat (s : State) (b : Beat) : State :=
  if b.index = 0 then
    { s with port := { s.port with grant := false, single := false }, live := { s.live with snapshot := none } }
  else s

/-- The last beat of a burst gives the grant back. -/
def State.endBeat (s : State) (b : Beat) : State :=
  if b.index + 1 = b.len.beats then { s with port := { s.port with grant := false } } else s

/-- R155: a beat that is not presented to memory ends the memory-side burst; the rest goes as single beats. A grant once
made is not taken back before the burst ends. -/
def State.noAccess (s : State) (b : Beat) : State :=
  State.endBeat { s with port := { s.port with single := true } } b

/-- R155, R165: the beat stalls for a part access: the memory-side burst and its grant end, and what follows of the host
burst is a grant of its own. -/
def State.stall (s : State) : State := { s with port := { s.port with grant := false, single := true } }

/-- R165: the host's beat is granted the port, or goes on under the grant of its burst. None: the grant counter stands at 16
and the part goes first. -/
def State.hostGrant (s : State) : Option State :=
  if s.port.grant then some s
  else if s.partWork then
    (if s.port.counter < 16 then some { s with port := { s.port with grant := true, counter := s.port.counter + 1 } } else none)
  else some { s with port := { s.port with grant := true, counter := 0 } }

/-- The beat stands on the hold line, judged (log 10). -/
def State.waits (s : State) (b : Beat) (a : Access) : State := { s with port := { s.port with wait := some ⟨b, a⟩ } }

/-- The host presents a beat; behind a committing beat, or one that stands on the hold line, it cannot (R8, R155, R161). -/
def State.hostBeat (s : State) (b : Beat) (f : State → State) : State :=
  if s.port.commit.isSome || s.port.wait.isSome then s else f (s.beginBeat b)

/-- R7: a beat that does not complete the held low byte of Presence Hold discards it, and counts once (log 47). -/
def State.dropHeld (s : State) : State :=
  match s.capture.held with
  | none => s
  | some _ => { s with capture := { s.capture with held := none }, live := s.live.laneDrop true }

/-! ### Marks of a record (R4, R5) -/

/-- R4: a staging beat. -/
def State.stage (s : State) (t : Table) (i : Nat) : State :=
  let m := s.capture.mark t i
  if m.staged then s
  else
    { s with capture := s.capture.setMark t i { m with staged := true, verdict := 2 },
             reflect := s.reflect.join (.record t i) }

/-- R5: a replacement sets the record's clamp mark. -/
def State.clampMark (s : State) (t : Table) (i : Nat) (clamps : Nat) : State :=
  if clamps = 0 then s
  else { s with capture := s.capture.setMark t i { s.capture.mark t i with clamped := true } }

/-! ### The Reflect Engine (R162 to R165) -/

/-- A burst of the Reflect Engine written to memory. -/
def State.writeBurst (s : State) (r : RecName) (bs : List (Nat × Byte)) : State :=
  s.store (bs.map (fun p => (s.recAddr r + p.1, p.2)))

/-- R163: the record at the head of the Reflect List is copied and removed. -/
def State.takeHead (s : State) : State :=
  match s.reflect.list with
  | [] => s
  | r :: rs => { s with reflect := { list := rs, current := some (r, burstsOf (s.partBytes r)) } }

/-- R163: one burst of the record being written. -/
def State.reflectBurst (s : State) : State :=
  match s.reflect.current with
  | none => s
  | some (_, []) => { s with reflect := { s.reflect with current := none } }
  | some (r, b :: bs) =>
    let s := s.writeBurst r b
    { s with reflect := { s.reflect with current := if bs.isEmpty then none else some (r, bs) } }

/-- The record that a beat's class names. -/
def BeatClass.record : BeatClass → Option RecName
  | .table t i _ => some (.record t i)
  | .header _ => some .header
  | .slot i _ => some (.slot i)
  | .live | .tableEnd _ | .ringEnd | .plain => none

/-- R164: the remaining bursts of a record whose reflect writes have begun. -/
def State.finishReflect (s : State) (r : RecName) : State :=
  match s.reflect.current with
  | none => s
  | some (q, bs) =>
    if q = r then
      let s := bs.foldl (fun s b => s.writeBurst r b) s
      { s with reflect := { s.reflect with current := none } }
    else s

/-- R164: a listed record is copied, removed and written out of turn. -/
def State.promote (s : State) (r : RecName) : State :=
  if r ∈ s.reflect.list then
    let t := { s with reflect := { s.reflect with list := s.reflect.list.filter (fun q => decide (q ≠ r)) } }
    (burstsOf (s.partBytes r)).foldl (fun t b => t.writeBurst r b) t
  else s

/-- R164: the record is listed, or its reflect writes have begun and not ended. -/
def State.behind (s : State) (r : RecName) : Bool :=
  decide (r ∈ s.reflect.list) ||
    (match s.reflect.current with
     | none => false
     | some (q, _) => decide (q = r))

/-! ### Accesses of host beats (R155, R161, R164, R165) -/

/-- R164: a record that is behind is made current before a read of it passes, in RUN: what remains of its reflect writes is
written, and it is promoted if it is listed. The read stalls for it. -/
def State.makeCurrent (s : State) (r : RecName) : State :=
  if decide (s.mode = .run) && s.behind r then ((s.finishReflect r).promote r).stall else s

/-- What goes before an access: a read's record is made current. -/
def State.before (s : State) : Access → State
  | .read (some r) => s.makeCurrent r
  | .read none | .write _ | .ring _ _ | .table _ _ _ _ => s

/-- An access that has been granted the port. A committing beat is held for its read-back, which ends its grant (R8, R161). -/
def State.perform (s : State) (b : Beat) : Access → State
  | .read _ => State.endBeat { s with port := { s.port with readData := Memory.readWord s.mem (Beat.word b) } } b
  | .write bs => (s.store bs).endBeat b
  | .ring bs producer =>
    let s := s.store bs
    State.endBeat { s with ring := { s.ring with causeProducer := s.ring.causeProducer || producer } } b
  | .table bs t i commits =>
    let s := s.store bs
    if commits then State.stall { s with port := { s.port with commit := some (t, i) } } else (s.stage t i).endBeat b

/-- R155, R165: a judged beat goes to memory, or stands on the hold line until the port is granted to it. -/
def State.access (s : State) (b : Beat) (a : Access) : State :=
  let s := s.before a
  match s.hostGrant with
  | none => s.waits b a
  | some t => t.perform b a

/-- R165: the beat that stands on the hold line is granted the port. -/
def State.resume (s : State) : State :=
  match s.port.wait with
  | none => s
  | some w => State.access { s with port := { s.port with wait := none } } w.beat w.access

/-- R165: the part has been granted the port once: the counter returns to 0, and a host beat that waits goes next. -/
def State.partGrant (s : State) : State := State.resume { s with port := { s.port with counter := 0 } }

/-- A beat that passes as it came: one that is plain, or beyond the last record or slot (R156, R157). -/
def State.passBeat (s : State) (b : Beat) : State :=
  let s := s.dropHeld
  if !b.write then s.access b (.read none)
  else if b.lanes = 0 then s.noAccess b
  else s.access b (.write (lanesOf (Beat.word b) b.lanes b.data))

/-- A read beat that falls on a record (R164). -/
def State.readBeat (s : State) (b : Beat) (r : RecName) : State := s.dropHeld.access b (.read (some r))

/-- R163, R165: the Reflect Engine has work and the port is its own: no ring fetch read waits. A commit that is held for its
read-back does not keep it from writing (R161; log 11). -/
def State.reflectDue (s : State) : Bool :=
  decide (s.mode = .run) && s.portFree && !s.fetchWaits && (s.reflect.current.isSome || !s.reflect.list.isEmpty)

/-- R163, R165: one part grant of the Reflect Engine. -/
def State.reflectWrite (s : State) : State :=
  let s := if s.reflect.current.isNone then s.takeHead else s
  s.reflectBurst.partGrant

/-- R148, R165: one burst of a fetch attempt; each burst that reads is a part grant. -/
def ringFetch (s : State) : State :=
  let t := s.withRing (fetchBurst s)
  if s.ring.reads then t.partGrant else t

/-! ### The Lane Filter (R3, R5, R6, R7, R157) -/

/-- A clamped field of Table 1.9A: offset, width in bytes and limits. -/
structure ClampField where
  off : Nat
  width : Nat
  lo : Nat
  hi : Nat

/-- Table 1.9A, but for Presence Hold, which R7 gives. -/
def clampFields (p : Params) : Table → List ClampField
  | .zone => ([0, 2, 4, 6].map (fun o => ({ off := o, width := 2, lo := 0, hi := p.coMax } : ClampField))) ++
      ([8, 10, 12].map (fun o => { off := o, width := 2, lo := 0, hi := p.no2Max }))
  | .channel => [{ off := 4, width := 1, lo := p.minLight, hi := 100 }, { off := 5, width := 1, lo := 0, hi := 100 },
      { off := 6, width := 1, lo := 0, hi := 100 }]
  | .gate => [{ off := 8, width := 2, lo := 30, hi := 1800 }, { off := 10, width := 2, lo := 5, hi := 600 }]
  | .group | .fan | .bay | .sign => []

/-- R5: a value brought to its limits. -/
def clampTo (lo hi v : Nat) : Nat := if hi < v then hi else if v < lo then lo else v

/-- R6: lane `j` of the word at `off` is one of a 16-bit clamped field whose other lane is not enabled. -/
def halfLane (fs : List ClampField) (off : Nat) (lanes : BitVec 4) (j : Nat) : Bool :=
  fs.any (fun f => decide (f.width = 2) &&
    ((decide (off + j = f.off) && !lanes.getLsbD (j + 1)) || (decide (off + j = f.off + 1) && !lanes.getLsbD (j - 1))))

/-- R5: the data of a beat with its whole clamped fields clamped, and how many were replaced. -/
def clampBeat (fs : List ClampField) (off : Nat) (lanes : BitVec 4) (bs : List Byte) : List Byte × Nat :=
  fs.foldl (fun acc f =>
    let j := f.off - off
    if off ≤ f.off ∧ f.off < off + 4 ∧ lanes.getLsbD j = true then
      let v := natOfBytes ((acc.1.drop j).take f.width)
      let w := clampTo f.lo f.hi v
      if w = v then acc else (acc.1.take j ++ bytesOfNat f.width w ++ acc.1.drop (j + f.width), acc.2 + 1)
    else acc) (bs, 0)

/-- What the Lane Filter makes of a TABLE write beat: the lanes and data that go to memory, whether lanes were lost, the
fields replaced, the low byte of Presence Hold held back, and the clamped low byte to be written to byte 7. -/
structure Filtered where
  lanes : BitVec 4
  data : List Byte
  lost : Bool
  clamps : Nat
  held : Option (Nat × Byte)
  low : Option Byte

/-- The bytes of a beat's data. -/
def Beat.bytes (b : Beat) : List Byte := (List.range 4).map (byteOf b.data)

/-- R7: the Presence Hold lanes of a CHANNEL beat, after the other removals and clamps. -/
def holdLanes (s : State) (b : Beat) (i off : Nat) (f : Filtered) : Filtered :=
  let mine : Option Byte :=
    match s.capture.held with
    | none => none
    | some (k, lo) => if k = i ∧ b.index ≠ 0 then some lo else none
  if decide (off = 4) && f.lanes.getLsbD 3 then
    let g := { f with lanes := laneMask (fun j => f.lanes.getLsbD j && decide (j ≠ 3)) }
    if Beat.nextWord b = some (Beat.word b + 4) then { g with held := some (i, f.data.getD 3 0) } else { g with lost := true }
  else if decide (off = 8) && f.lanes.getLsbD 0 then
    match mine with
    | some lo =>
      let v := lo.toNat + 256 * (f.data.getD 0 0).toNat
      let w := clampTo 10 3600 v
      { f with data := BitVec.ofNat 8 (w / 256) :: f.data.drop 1, low := some (BitVec.ofNat 8 w),
               clamps := if w = v then f.clamps else f.clamps + 1 }
    | none => { f with lanes := laneMask (fun j => f.lanes.getLsbD j && decide (j ≠ 0)), lost := true }
  else f

/-- R157: the Lane Filter on a beat at offset `off` of record `i` of a table. -/
def filterBeat (s : State) (b : Beat) (t : Table) (i off : Nat) : Filtered :=
  let owned := laneMask (fun j => Beat.lane b j && hostOwned t (off + j))
  let fs := clampFields s.cfg.params t
  let whole := laneMask (fun j => owned.getLsbD j && !halfLane fs off owned j)
  let c := clampBeat fs off whole (Beat.bytes b)
  let f : Filtered := { lanes := whole, data := c.1, lost := decide (whole ≠ b.lanes), clamps := c.2, held := none, low := none }
  let f := if t = .channel then holdLanes s b i off f else f
  { f with lost := f.lost || (s.capture.held.isSome && f.low.isNone) }

/-! ### TABLE write beats (R4, R5, R7, R8, R157, R161) -/

/-- What the Lane Filter leaves besides the beat's lanes: the held low byte, the counters and the record's clamp mark. -/
def State.filtered (s : State) (t : Table) (i : Nat) (f : Filtered) : State :=
  let s := { s with capture := { s.capture with held := f.held }, live := (s.live.laneDrop f.lost).clamp f.clamps }
  s.clampMark t i f.clamps

/-- R7: the clamped low byte of Presence Hold goes to byte 7 of the record ahead of the beat that completes it, as an access
that the beat stalls for. -/
def State.lowByte (s : State) (t : Table) (i : Nat) (f : Filtered) : State :=
  match f.low with
  | none => s
  | some v => (s.store [(s.recAddr (.record t i) + 7, v)]).stall

/-- The (address, byte) pairs of the lanes that a filtered beat keeps. -/
def State.keptLanes (s : State) (t : Table) (i off : Nat) (f : Filtered) : List (Nat × Byte) :=
  ((List.range 4).filter (fun j => f.lanes.getLsbD j)).map (fun j => (s.recAddr (.record t i) + off + j, f.data.getD j 0))

/-- R8: a filtered beat keeps the lane of the Commit byte. -/
def commits (t : Table) (off : Nat) (f : Filtered) : Bool :=
  let c := commitOffset t
  decide (off ≤ c ∧ c < off + 4) && f.lanes.getLsbD (c - off)

/-- A TABLE write beat that the Guard Map has passed. -/
def State.tableWrite (s : State) (b : Beat) (t : Table) (i off : Nat) : State :=
  let f := filterBeat s b t i off
  let s := s.filtered t i f
  if f.lanes = 0 then s.noAccess b
  else (s.lowByte t i f).access b (.table (s.keptLanes t i off f) t i (commits t off f))

/-- R159: the Guard Map drops a write beat at this address. -/
def State.guarded (s : State) (t : Table) (a : Nat) : Bool :=
  s.guard.locks.getLsbD (s.guardIndex t a) || s.guard.hard t

/-- R159: a beat dropped whole. -/
def State.dropBeat (s : State) (b : Beat) : State :=
  let s := s.dropHeld
  State.noAccess { s with live := s.live.dropWrite (Beat.word b) } b

/-! ### Commits (R9 to R11, R20, R21) -/

/-- R21: the units that take a commit of a table, the Terminal Block among them. -/
def takers : Table → List UnitId
  | .zone => [.air, .guidance, .terminal]
  | .group | .fan => [.fan, .terminal]
  | .bay => [.occupancy, .terminal]
  | .channel => [.lighting, .terminal]
  | .gate | .sign => [.guidance, .terminal]

/-- R21: the hand-over of a commit. -/
def handOver (t : Table) (i : Nat) (old new : AnyRec) : List Eff :=
  (takers t).map (fun u => .send { src := .capture, dst := u, body := .commit i old new })

/-- R9, R10, R11, R20: the read-back of record `i` has ended. -/
def State.commitDone (s : State) (t : Table) (i : Nat) : State :=
  let new := recordOf t (Memory.readAll s.mem (s.recAddr (.record t i)) (commitOffset t + 1))
  let old := s.capture.applied.at_ t i
  let free := s.capture.maps.claim old none
  let m := s.capture.mark t i
  let done (v : Nat) (c : Capture) : State :=
    let s := { s with capture := c.setMark t i { staged := false, clamped := false, verdict := v } }
    { s with port := { s.port with commit := none }, reflect := s.reflect.join (.record t i) }
  let apply_ (v : Nat) : State :=
    (done v { s.capture with applied := s.capture.applied.put i new, maps := free.claim new (some i) }).emit
      (handOver t i old new)
  if new.enabled then
    match checkRecord s free i new with
    | none => apply_ (if m.clamped then 3 else 0)
    | some v => (done v s.capture).effect (.attend .verdictReject)
  else apply_ 1

/-! ### Ring beats (R157, R159) -/

/-- The lanes of a RING beat on host-owned bytes. -/
def ringLanes (header : Bool) (off : Nat) (b : Beat) : BitVec 4 :=
  laneMask (fun j => Beat.lane b j && !ringPartOwned header (off + j))

/-- R148, R157: a RING write beat in RUN at offset `off` of the header or of a slot. -/
def State.ringWrite (s : State) (b : Beat) (header : Bool) (off : Nat) : State :=
  let lanes := ringLanes header off b
  let lost := decide (lanes ≠ b.lanes) || s.capture.held.isSome
  let s := { s with capture := { s.capture with held := none }, live := s.live.laneDrop lost }
  if lanes = 0 then s.noAccess b
  else s.access b (.ring (lanesOf (Beat.word b) lanes b.data) (header && decide (off = 0)))

/-! ### The commands -/

/-- R156, R173: a beat is answered by the Live Window: its address lies in it, or an earlier beat of its burst did and the
burst stays within that block. -/
def State.inLive (s : State) (b : Beat) : Bool :=
  decide (0xFFF000 ≤ Beat.word b) || (decide (b.index ≠ 0) && s.live.snapshot.isSome)

/-- The class of a beat (R156), but for one that follows in a burst of the Live Window (R173, log 41). -/
def State.beatClass (s : State) (b : Beat) : BeatClass := if s.inLive b then .live else s.classify (Beat.word b)

/-- R156: a beat that is plain, or a read beyond the last record or slot. -/
def State.plainBeat (s : State) (b : Beat) : Bool :=
  match s.beatClass b with
  | .plain => true
  | .tableEnd _ | .ringEnd => !b.write
  | .live | .table _ _ _ | .header _ | .slot _ _ => false

/-- PLAIN_BEAT (R156). -/
def execPlainBeat (b : Beat) (s : State) : Host.Outcome State Fault Refusal :=
  goOn (s.when_ (s.plainBeat b) (fun s => s.hostBeat b (fun s => s.passBeat b)))

/-- A TABLE write beat judged by the Guard Map, then filtered and captured (R157, R159). One that enables no lane is judged like
any other: where the granule is locked it is dropped and counted in Dropped Writes (log 66). -/
def State.tableBeat (s : State) (b : Beat) : State :=
  match s.beatClass b with
  | .table t i off => if s.guarded t (Beat.word b) then s.dropBeat b else s.tableWrite b t i off
  | .tableEnd t => if s.guarded t (Beat.word b) then s.dropBeat b else s.passBeat b
  | .live | .header _ | .slot _ _ | .ringEnd | .plain => s

/-- TABLE_WRITE_BEAT (R157). -/
def execTableWriteBeat (b : Beat) (s : State) : Host.Outcome State Fault Refusal :=
  let table := match s.beatClass b with
    | .table _ _ _ | .tableEnd _ => true
    | .live | .header _ | .slot _ _ | .ringEnd | .plain => false
  goOn (s.when_ (b.write && table) (fun s => s.hostBeat b (fun s => s.tableBeat b)))

/-- COMMIT_READ_BACK_DONE (R10). -/
def execCommitReadBackDone (s : State) : Host.Outcome State Fault Refusal :=
  match s.port.commit with
  | none => goOn s
  | some (t, i) => goOn (s.commitDone t i)

/-- A RING write beat (R157, R159); in BUILDING it is dropped and counted also when it enables no lane (log 66). -/
def State.ringBeat (s : State) (b : Beat) : State :=
  if s.mode = .building then s.dropBeat b
  else
    match s.beatClass b with
    | .header off => s.ringWrite b true off
    | .slot _ off => s.ringWrite b false off
    | .ringEnd => s.passBeat b
    | .live | .table _ _ _ | .tableEnd _ | .plain => s

/-- RING_WRITE_BEAT (R157). -/
def execRingWriteBeat (b : Beat) (s : State) : Host.Outcome State Fault Refusal :=
  let ring := match s.beatClass b with
    | .header _ | .slot _ _ | .ringEnd => true
    | .live | .table _ _ _ | .tableEnd _ | .plain => false
  goOn (s.when_ (b.write && ring) (fun s => s.hostBeat b (fun s => s.ringBeat b)))

/-- HOST_TABLE_READ (R164). -/
def execHostTableRead (b : Beat) (s : State) : Host.Outcome State Fault Refusal :=
  match (s.beatClass b).record with
  | none => goOn s
  | some r => goOn (s.when_ (!b.write) (fun s => s.hostBeat b (fun s => s.readBeat b r)))

/-- FETCH_ATTEMPT (R148): one part burst of the attempt (log 62). -/
def execFetchAttempt (s : State) : Host.Outcome State Fault Refusal := goOn (s.when_ s.fetchDue ringFetch)

/-- REFLECT_WRITE (R163): one burst. -/
def execReflectWrite (s : State) : Host.Outcome State Fault Refusal := goOn (s.when_ s.reflectDue State.reflectWrite)

end Sys2Proof.Machine
end

