-- ==== Sys2Proof/Machine/Terminals.lean ====
section
/-! DEFINITION. The Terminal Block (Chapter 7): functions in effect, debounce, gate and smoke inputs, outputs. -/

namespace Sys2Proof.Machine

/-- Terminal `t`. -/
def Term.term (u : Term) (t : Nat) : TermU := Tab.get TermU.init u.terms t

/-- Terminal `t` replaced. -/
def Term.setTerm (u : Term) (t : Nat) (x : TermU) : Term := { u with terms := Tab.set TermU.init u.terms t x }

/-- The unit at work. -/
abbrev TermAcc := Acc Term

/-- A message of the block. -/
def termSend (dst : UnitId) (b : Body) : Eff := .send { src := .terminal, dst := dst, body := b }

/-- The image's entry of terminal `t`. -/
def State.termCfg (s : State) (t : Nat) : TermCfg := s.cfg.terms.getD t { cands := [], activeLow := false, pull := 0 }

/-- The sixteen terminals, in order. -/
def terminals : List Nat := List.range 16

/-! ### Functions (Section 7.1) -/

/-- The function of a candidate (Tables 7.1, 11.2); bit 7 of a STAGE_OUT argument is not used (log 17). -/
def funcOf (c : Nat × Nat) : Option Func :=
  match c.1 with
  | 1 => some (.gateIn c.2)
  | 2 => some (.gateOut c.2)
  | 3 => some .smoke
  | 4 => some (.fanFb c.2)
  | 5 => some .plainIn
  | 6 => some (.stageOut (c.2 % 16) (c.2 / 16 % 8))
  | 7 => some (.gateFull c.2)
  | 8 => some .alarmOut
  | 9 => some (.plainOut c.2)
  | _ => none

/-- The code of a function (Table 7.1). -/
def funcCode : Func → Nat
  | .gateIn _ => 1
  | .gateOut _ => 2
  | .smoke => 3
  | .fanFb _ => 4
  | .plainIn => 5
  | .stageOut _ _ => 6
  | .gateFull _ => 7
  | .alarmOut => 8
  | .plainOut _ => 9

/-- The debounce time in ms of an input with a timer of its own (Table 7.1); none for SMOKE and the outputs. -/
def debounceTime : Func → Option Nat
  | .gateIn _ | .gateOut _ => some 100
  | .fanFb _ => some 500
  | .plainIn => some 20
  | .smoke | .stageOut _ _ | .gateFull _ | .alarmOut | .plainOut _ => none

/-- A function is usable at terminal `t` (Table 7.1), by the records the block has in force (log 4). -/
def Term.usable (u : Term) (t : Nat) : Func → Bool
  | .gateIn g | .gateOut g | .gateFull g => (Tab.get GateRec.init u.gates g).enabled
  | .fanFb f => let r := Tab.get FanRec.init u.fans f; r.enabled && decide (r.terminal = t)
  | .stageOut z _ => (Tab.get ZoneRec.init u.zones z).enabled
  | .smoke | .plainIn | .alarmOut | .plainOut _ => true

/-- R115: the first usable candidate with its place. -/
def Term.candidate (u : Term) (t : Nat) : Nat → List (Nat × Nat) → Option (Func × Nat)
  | _, [] => none
  | p, c :: cs =>
    match funcOf c with
    | none => Term.candidate u t (p + 1) cs
    | some f => if u.usable t f then some (f, p) else Term.candidate u t (p + 1) cs

/-- A function is SMOKE. -/
def isSmoke (f : Option (Func × Nat)) : Bool := decide (f.map (fun p => p.1) = some .smoke)

/-- R115, R116: the function that an evaluation gives terminal `t`; a SMOKE terminal keeps it during an override. -/
def Term.effective (s : State) (u : Term) (t : Nat) : Option (Func × Nat) :=
  let cur := (u.term t).func
  if decide (u.override ≠ .normal) && isSmoke cur then cur else u.candidate t 0 (s.termCfg t).cands

/-! ### Levels (Section 7.2) -/

/-- The active level of terminal `t` as an input. -/
def Term.active (s : State) (u : Term) (t : Nat) : Bool := u.lines.getLsbD t != (s.termCfg t).activeLow

/-- R121: the combined smoke input. -/
def Term.smokeInput (s : State) (u : Term) : Bool :=
  terminals.any (fun t => isSmoke (u.term t).func && u.active s t)

/-- R121 with R118: what a change of the combined smoke input does to its timer. `before` is the input before the change. -/
def smokeMoved (s : State) (before : Bool) (u : Term) : Term :=
  let now := u.smokeInput s
  if now = before then u
  else { u with smokeTimer := if now = u.smokeDeb then none else some (s.clock + 1000) }

/-- R123, R124: an output function asks for active. -/
def Term.asks (u : Term) (plain : BitVec 16) : Func → Bool
  | .stageOut z k => decide (k ≤ Tab.get 0 u.stages z)
  | .gateFull g => Tab.get false u.full g
  | .alarmOut => u.alarm
  | .plainOut i => plain.getLsbD i
  | .gateIn _ | .gateOut _ | .smoke | .fanFb _ | .plainIn => false

/-- A function is an output. -/
def Func.output : Func → Bool
  | .stageOut _ _ | .gateFull _ | .alarmOut | .plainOut _ => true
  | .gateIn _ | .gateOut _ | .smoke | .fanFb _ | .plainIn => false

/-- What is connected to a line of the part's terminals (R117). -/
inductive Pull where
  | none | up | down
deriving DecidableEq, Repr

/-- The pull that the image gives (Table 11.2). -/
def pullOf (code : Nat) : Pull := if code = 1 then .up else if code = 2 then .down else .none

/-- R117: terminal `t` drives its line: in RUN, while its function in effect is an output. -/
def State.terminalDrives (s : State) (t : Nat) : Bool :=
  decide (s.mode = .run) &&
    (match (s.term.term t).func with
     | none => false
     | some (f, _) => f.output)

/-- R116, R117, R125: the pull connected to terminal `t`: the image's while the terminal is an input in RUN, one with no
function in effect included; none while it drives, and in LOADING, BUILDING and HALTED. -/
def State.terminalPull (s : State) (t : Nat) : Pull :=
  if s.mode = .run ∧ s.terminalDrives t = false then pullOf (s.termCfg t).pull else .none

/-- R117: the level that Terminal Levels shows: the line's, or the one that an output drives in RUN. -/
def State.terminalLevel (s : State) (t : Nat) : Bool :=
  match (s.term.term t).func with
  | none => s.term.lines.getLsbD t
  | some (f, _) =>
    if f.output && decide (s.mode = .run) then s.term.asks s.live.plainOut f != (s.termCfg t).activeLow
    else s.term.lines.getLsbD t

/-- R117: Terminal Active of terminal `t`. -/
def State.terminalActive (s : State) (t : Nat) : Bool :=
  match (s.term.term t).func with
  | none => false
  | some (f, _) =>
    if f.output then s.term.asks s.live.plainOut f
    else if f = .smoke then s.term.smokeDeb
    else (s.term.term t).deb

/-- The Functions in effect byte (R115, Table 11.3). -/
def State.functionByte (s : State) (t : Nat) : Byte :=
  match (s.term.term t).func with
  | none => 0
  | some (f, p) => BitVec.ofNat 8 (funcCode f + 16 * p)

/-! ### Queue marks (R120) -/

/-- Some terminal that carries GATE_OUT g has its queue mark set. -/
def Term.anyMark (u : Term) (g : Nat) : Bool :=
  terminals.any (fun t => decide ((u.term t).func.map (fun p => p.1) = some (.gateOut g)) && (u.term t).mark)

/-- R120: reports gate `g` queued or cleared when that has changed; `any` says whether it has a queue mark now. -/
def queueReport (a : TermAcc) (g : Nat) (any : Bool) : TermAcc :=
  if any = Tab.get false a.u.queued g then a
  else (a.put { a.u with queued := Tab.set false a.u.queued g any }).say (termSend .guidance (.gateQueue g any))

/-- R120: the exit-queue timer stops and the queue mark is cleared. -/
def clearQueue (a : TermAcc) (t g : Nat) : TermAcc :=
  let a := a.put (a.u.setTerm t { a.u.term t with exitTimer := none, mark := false })
  queueReport a g (a.u.anyMark g)

/-! ### Function evaluation (R115, R116) -/

/-- R116: terminal `t` leaves its old function. -/
def leaveFunc (a : TermAcc) (t : Nat) : TermAcc :=
  match (a.u.term t).func with
  | some (.gateOut g, _) => clearQueue a t g
  | some (.fanFb f, _) => a.say (termSend .fan (.feedback f t none))
  | _ => a

/-- R116: terminal `t` takes a function, or none. An input takes the level that its line has from outside; for a line that
the terminal has just ceased to drive that is the one last set by LEVEL_CHANGE (log 55). -/
def takeFunc (s : State) (a : TermAcc) (t : Nat) (f : Option (Func × Nat)) : TermAcc :=
  let timer :=
    match f with
    | none => none
    | some p => if a.u.active s t then (debounceTime p.1).map (fun d => s.clock + d) else none
  let a := a.put (a.u.setTerm t { func := f, deb := false, timer := timer, exitTimer := none, mark := false })
  match f with
  | some (.fanFb k, _) => a.say (termSend .fan (.feedback k t (some false)))
  | _ => a

/-- R115: evaluates the function in effect of terminal `t`. -/
def evalTerm (s : State) (a : TermAcc) (t : Nat) : TermAcc :=
  let f := a.u.effective s t
  if f.map (fun p => p.1) = (a.u.term t).func.map (fun p => p.1) then a
  else
    let before := a.u.smokeInput s
    let a := takeFunc s (leaveFunc a t) t f
    a.put (smokeMoved s before a.u)

/-- R115: evaluates every terminal, T0 to T15. -/
def evalTerms (s : State) (a : TermAcc) : TermAcc := a.each terminals (evalTerm s)

/-- The block's event put into the part. -/
def State.withTerm (s : State) (a : TermAcc) : State := State.emit { s with term := a.u } a.out

/-- R115, R125: entry to RUN. -/
def State.termEnterRun (s : State) : State := s.withTerm (evalTerms s (Acc.start s.term))

/-- The table of a record. -/
def AnyRec.table : AnyRec → Table
  | .zone _ => .zone
  | .group _ => .group
  | .fan _ => .fan
  | .bay _ => .bay
  | .channel _ => .channel
  | .gate _ => .gate
  | .sign _ => .sign

/-- The block's records in force after a commit of record `i`. -/
def Term.takeRecord (u : Term) (i : Nat) : AnyRec → Term
  | .zone r => { u with zones := Tab.set ZoneRec.init u.zones i r }
  | .fan r => { u with fans := Tab.set FanRec.init u.fans i r }
  | .gate r => { u with gates := Tab.set GateRec.init u.gates i r }
  | .group _ | .bay _ | .channel _ | .sign _ => u

/-- R21, R115: the report of a commit. -/
def termCommit (s : State) (i : Nat) (new : AnyRec) : State :=
  s.withTerm (evalTerms s (Acc.start (s.term.takeRecord i new)))

/-! ### Inputs (Sections 7.3 to 7.6) -/

/-- The line of terminal `t` at a level. -/
def setLine (lines : BitVec 16) (t : Nat) (high : Bool) : BitVec 16 :=
  if high then lines ||| BitVec.ofNat 16 (2 ^ t) else lines &&& ~~~(BitVec.ofNat 16 (2 ^ t))

/-- R118: what a level change does to the terminal's debounce timer. -/
def bounce (s : State) (u : Term) (t : Nat) : Term :=
  let x := u.term t
  match x.func.bind (fun p => debounceTime p.1) with
  | none => u
  | some d => u.setTerm t { x with timer := if u.active s t = x.deb then none else some (s.clock + d) }

/-- R117, R118, R121: the level of a line changes. Outside RUN nothing but the line itself changes. -/
def termLevel (s : State) (t : Nat) (high : Bool) : State :=
  if s.term.lines.getLsbD t = high then s
  else
    let u := { s.term with lines := setLine s.term.lines t high }
    if s.mode = .run then { s with term := smokeMoved s (s.term.smokeInput s) (bounce s u t) }
    else { s with term := u }

/-- R119, R120, R122: what a debounced change to `on` does. -/
def debounced (s : State) (a : TermAcc) (t : Nat) (on : Bool) : TermAcc :=
  match (a.u.term t).func with
  | some (.gateIn g, _) => a.sayIf on (termSend .guidance (.entry g))
  | some (.gateOut g, _) =>
    if on then
      let q := (Tab.get GateRec.init a.u.gates g).exitQueue
      (a.put (a.u.setTerm t { a.u.term t with exitTimer := some (s.inSecs q) })).say (termSend .guidance (.exit g))
    else clearQueue a t g
  | some (.fanFb f, _) => a.say (termSend .fan (.feedback f t (some on)))
  | _ => a

/-- R118: a debounce timer has run out. -/
def termDebounce (s : State) (t : Nat) : State :=
  let on := s.term.active s t
  s.withTerm (debounced s (Acc.start (s.term.setTerm t { s.term.term t with timer := none, deb := on })) t on)

/-- R121: the smoke debounce timer has run out. -/
def termSmoke (s : State) : State :=
  let on := s.term.smokeInput s
  s.withTerm ((Acc.start { s.term with smokeTimer := none, smokeDeb := on }).say (termSend .air (.smoke on)))

/-- R120: an exit-queue timer has run out. -/
def termExitQueue (s : State) (t : Nat) : State :=
  let a := Acc.start (s.term.setTerm t { s.term.term t with exitTimer := none, mark := true })
  s.withTerm
    (match (s.term.term t).func with
    | some (.gateOut g, _) => queueReport a g (a.u.anyMark g)
    | _ => a)

/-! ### Copies (R123) -/

/-- R123: a stage notice. -/
def termStage (s : State) (z k : Nat) : State := { s with term := { s.term with stages := Tab.set 0 s.term.stages z k } }

/-- R123: a gate FULL notice. -/
def termFull (s : State) (g : Nat) (raised : Bool) : State :=
  { s with term := { s.term with full := Tab.set false s.term.full g raised } }

/-- R123: an alarm notice. -/
def termAlarm (s : State) (raised : Bool) : State := { s with term := { s.term with alarm := raised } }

/-- R116: an override notice; at NORMAL every terminal is evaluated again. -/
def termOverride (s : State) (o : Override) : State :=
  let a := Acc.start { s.term with override := o }
  s.withTerm (if o = .normal then evalTerms s a else a)

/-! ### The commands -/

/-- LEVEL_CHANGE (R118). -/
def execLevelChange (t : Fin 16) (high : Bool) (s : State) : Host.Outcome State Fault Refusal := goOn (termLevel s t high)

/-- DEBOUNCE_EXPIRY (R118). -/
def execDebounceExpiry (t : Fin 16) (s : State) : Host.Outcome State Fault Refusal :=
  goOn (s.when_ (s.due (s.term.term t).timer) (fun s => termDebounce s t))

/-- SMOKE_DEBOUNCE_EXPIRY (R121). -/
def execSmokeDebounceExpiry (s : State) : Host.Outcome State Fault Refusal :=
  goOn (s.when_ (s.due s.term.smokeTimer) termSmoke)

/-- EXIT_QUEUE_EXPIRY (R120). -/
def execExitQueueExpiry (t : Fin 16) (s : State) : Host.Outcome State Fault Refusal :=
  goOn (s.when_ (s.due (s.term.term t).exitTimer) (fun s => termExitQueue s t))

/-- FUNCTION_EVALUATION (R115): the block takes the report of a commit of record `i` of table `k`. -/
def execFunctionEvaluation (k : Table) (i : Nat) (s : State) : Host.Outcome State Fault Refusal :=
  match s.next? .capture .terminal with
  | some (.commit j _ new) =>
    if j = i ∧ new.table = k then goOn (termCommit (s.taken .capture .terminal) i new) else goOn s
  | _ => goOn s

/-- GATE_FULL_NOTICE (R123). -/
def execGateFullNotice (g : Nat) (raised : Bool) (s : State) : Host.Outcome State Fault Refusal :=
  goOn (s.take .guidance .terminal (.gateFull g raised) (fun s => termFull s g raised))

/-- ALARM_NOTICE (R123). -/
def execAlarmNotice (raised : Bool) (s : State) : Host.Outcome State Fault Refusal :=
  goOn (s.take .air .terminal (.alarm raised) (fun s => termAlarm s raised))

end Sys2Proof.Machine
end

