-- ==== Sys2Proof/Machine/LiveWindow.lean ====
section
/-! DEFINITION. The Live Window (Sections 11.5 and 11.6): what it shows, its writable fields, the device commands. -/

namespace Sys2Proof.Machine

/-! ### What the window shows (Table 11.3) -/

/-- Device Mode (Table 11.1). -/
def modeCode : Mode → Nat
  | .loading => 0
  | .building => 1
  | .run => 2
  | .halted => 3

/-- Override State (Table 5.1). -/
def overrideCode : Override → Nat
  | .normal => 0
  | .active => 1
  | .clearing => 2

/-- Loop State (Table 8.6). -/
def loopCode : LoopState → Nat
  | .idle => 0
  | .closed => 1
  | .probing => 2
  | .broken => 3
  | .dead => 4

/-- Node State (Table 8.5). -/
def nodeCode : NodeState → Nat
  | .absent => 0
  | .joining => 1
  | .ready => 2
  | .waiting => 3
  | .failed => 4
  | .isolated => 5

/-- Reach (R128). -/
def reachCode : Reach → Nat
  | .a => 0
  | .b => 1
  | .unreached => 2

/-- Byte `k` of a number, low byte first. -/
def byteAt (n k : Nat) : Byte := byte1 (n / 256 ^ k)

/-- A mask of terminals as a number. -/
def terminalMask (p : Nat → Bool) : Nat := (terminals.map (fun t => bitVal (p t) t)).sum

/-- R128: the byte of a node. -/
def nodeByte (nd : Node) : Byte := byte1 (nodeCode nd.state + 16 * reachCode nd.reach + 64 * causeCode nd.cause)

/-- R158: the guard indices below the guarded count have lock bits; the others read 0. -/
def State.lockByte (s : State) (k : Nat) : Byte :=
  byte1 (((List.range 8).map (fun j => bitVal (s.guard.locks.getLsbD (8 * k + j)) j)).sum)

/-- R55, Table 3.5: byte `k` of the view of a hold. Seconds Left is 0 once the Expiry is past (log 36). -/
def holdByte (s : State) (h : Hold) (k : Nat) : Byte :=
  if k = 0 then h.id
  else if k = 1 then byte1 h.gate
  else if k = 2 then byte1 h.zone
  else if k = 3 then byte1 h.position
  else if k < 6 then byteAt (h.expiry - s.secs) (k - 4)
  else byteAt h.created.toNat (k - 6)

/-- Native count of an id: a table's native maximum, or 64 slots. -/
def nativeCount (id : Nat) : Nat := if id = 7 then 64 else nativeMax (tables.getD id .zone)

/-- Table 11.3, counts: native and in-effect count of an id; 0 before BUILDING and in HALTED. -/
def State.countByte (s : State) (off : Nat) : Byte :=
  let id := off / 4
  if s.windowsInEffect then
    (if off % 4 < 2 then byteAt (nativeCount id) (off % 4) else byteAt (s.cfg.counts.getD id 0) (off % 4 - 2))
  else 0

/-- Table 11.3: byte `k` of the block of loop `l`. -/
def State.loopByte (s : State) (l k : Nat) : Byte :=
  let L := s.loop l
  if k = 0 then byte1 (loopCode L.state)
  else if k = 1 then byte1 (s.ring.queue l).length
  else if k < 4 then 0
  else if k < 8 then byteAt L.framesSent.toNat (k - 4)
  else if k < 12 then byteAt L.timeouts.toNat (k - 8)
  else if k < 16 then byteAt L.checkErrors.toNat (k - 12)
  else if k < 20 then byteAt L.stale.toNat (k - 16)
  else if k < 24 then byteAt L.misses.toNat (k - 20)
  else 0

/-- Bytes 000h to 09Fh of the Live Window. -/
def State.liveLow (s : State) (o : Nat) : Byte :=
  if o = 0 then byte1 (modeCode s.mode)
  else if o = 1 then s.resetCause
  else if o = 2 then s.configFault
  else if o = 3 then s.imageRevision
  else if o < 8 then byteAt s.time.toNat (o - 4)
  else if o < 0x20 then 0
  else if o < 0x22 then byteAt s.live.pendingAtt.toNat (o - 0x20)
  else if o < 0x24 then byteAt s.live.enableAtt.toNat (o - 0x22)
  else if o < 0x40 then 0
  else if o < 0x44 then byteAt s.live.cmdWord.toNat (o - 0x40)
  else if o = 0x44 then s.live.result
  else if o = 0x45 then s.live.resultCmd
  else if o < 0x60 then 0
  else if o < 0x64 then byteAt s.live.dropped.toNat (o - 0x60)
  else if o < 0x68 then byteAt s.live.laneDrops.toNat (o - 0x64)
  else if o < 0x6C then byteAt s.live.clamps.toNat (o - 0x68)
  else if o < 0x70 then byteAt s.live.lastDropped.toNat (o - 0x6C)
  else if o < 0x80 then 0
  else if o = 0x80 then byte1 (overrideCode s.air.override)
  else if o = 0x82 ∨ o = 0x83 then byteAt (terminalMask s.terminalLevel) (o - 0x82)
  else if o = 0x84 ∨ o = 0x85 then byteAt (terminalMask s.terminalActive) (o - 0x84)
  else if o = 0x86 ∨ o = 0x87 then byteAt s.live.plainOut.toNat (o - 0x86)
  else 0

/-- Table 11.3: the byte at offset `o` of the Live Window; an address not listed reads 0 (R173). -/
def State.liveByte (s : State) (o : Nat) : Byte :=
  if o < 0xA0 then s.liveLow o
  else if o < 0xB0 then s.functionByte (o - 0xA0)
  else if o < 0xC0 then 0
  else if o < 0xE0 then s.countByte (o - 0xC0)
  else if o < 0x100 then 0
  else if o < 0x180 then s.loopByte ((o - 0x100) / 32) ((o - 0x100) % 32)
  else if o < 0x200 then 0
  else if o < 0x220 then s.lockByte (o - 0x200)
  else if o < 0x400 then 0
  else if o < 0x600 then
    (match s.guid.holds[(o - 0x400) / 8]? with
     | none => 0
     | some h => holdByte s h ((o - 0x400) % 8))
  else if o < 0x680 then nodeByte ((s.loop ((o - 0x600) / 32)).node ((o - 0x600) % 32 + 1))
  else 0

/-! ### Snapshots (R173) -/

/-- The content of a block. -/
def State.liveBlock (s : State) (k : Nat) : List Byte := (List.range 32).map (fun j => s.liveByte (32 * k + j))

/-- R173: the first beat of a burst in a block takes the snapshot. -/
def State.takeSnapshot (s : State) (b : Beat) : State :=
  match s.live.snapshot with
  | some _ => s
  | none =>
    let k := (Beat.word b - 0xFFF000) / 32
    { s with live := { s.live with snapshot := some (k, s.liveBlock k) } }

/-- R173: the offset of the word that a beat of a burst falls on: it stays within the block of the snapshot. -/
def State.liveOffset (s : State) (b : Beat) : Nat :=
  match s.live.snapshot with
  | some (k, _) => 32 * k + Beat.word b % 32
  | none => Beat.word b - 0xFFF000

/-- R173: the word that a read beat returns from the snapshot. -/
def State.snapshotWord (s : State) (b : Beat) : Word :=
  match s.live.snapshot with
  | some (_, bs) => wordOf (fun j => bs.getD (Beat.word b % 32 + j) 0)
  | none => 0

/-! ### Device commands (R160, R174) -/

/-- R174: the outcome of a command. -/
def State.result (s : State) (code : Byte) (r : Nat) : State :=
  { s with live := { s.live with result := byte1 r, resultCmd := code } }

/-- R174: outside RUN a command gives NOT_RUNNING. -/
def State.inRun (s : State) (code : Byte) (f : State → State) : State := if s.mode = .run then f s else s.result code 2

/-- The lock bits of a run of guard indices. -/
def lockRange (base len : Nat) : BitVec 256 :=
  (List.range len).foldl (fun m k => m ||| BitVec.ofNat 256 (2 ^ (base + k))) 0

/-- R160: the bits of a mask locked. -/
def State.lockBits (s : State) (code : Byte) (m : BitVec 256) : State :=
  State.result { s with guard := { s.guard with locks := s.guard.locks ||| m } } code 0

/-- R160: the bits of a mask unlocked; one that clears a bit under a hard lock gives HARD_LOCKED. -/
def State.unlockBits (s : State) (code : Byte) (m : BitVec 256) (t : Option Table) : State :=
  let hard := match t with
    | none => false
    | some t => s.guard.hard t
  let r := if hard && decide (s.guard.locks &&& m ≠ 0) then 3 else 0
  State.result { s with guard := { s.guard with locks := s.guard.locks &&& ~~~m } } code r

/-- The lock bits of the granules of a table's window, if it is present. -/
def State.tableLocks (s : State) (id : Nat) : Option (Table × BitVec 256) :=
  match tables[id]? with
  | none => none
  | some t => if (s.window id).present then some (t, lockRange (s.guardBase t) (s.window id).len) else none

/-- LOCK_GRANULE g (R160). -/
def cmdLockGranule (s : State) (g : Nat) : State :=
  s.inRun 1 (fun s => if g < s.cfg.guarded then s.lockBits 1 (lockRange g 1) else s.result 1 1)

/-- UNLOCK_GRANULE g (R160). -/
def cmdUnlockGranule (s : State) (g : Nat) : State :=
  s.inRun 2 (fun s => if g < s.cfg.guarded then s.unlockBits 2 (lockRange g 1) (s.guardTable g) else s.result 2 1)

/-- LOCK_TABLE t (R160). -/
def cmdLockTable (s : State) (id : Nat) : State :=
  s.inRun 3 (fun s =>
    match s.tableLocks id with
    | none => s.result 3 1
    | some (_, m) => s.lockBits 3 m)

/-- UNLOCK_TABLE t (R160). -/
def cmdUnlockTable (s : State) (id : Nat) : State :=
  s.inRun 4 (fun s =>
    match s.tableLocks id with
    | none => s.result 4 1
    | some (t, m) => s.unlockBits 4 m (some t))

/-- LOOP_RESET (R139). -/
def cmdLoopReset (s : State) (l : Nat) : State :=
  s.inRun 5 (fun s => if 3 < l then s.result 5 1 else (loopReset s l).result 5 0)

/-- NODE_ISOLATE (R140). -/
def cmdNodeIsolate (s : State) (l n : Nat) : State :=
  s.inRun 6 (fun s =>
    if 3 < l ∨ nodeOk n = false then s.result 6 1
    else
      match ((s.loop l).node n).state with
      | .absent => s.result 6 1
      | .isolated => s.result 6 0
      | .joining | .ready | .waiting | .failed => (isolateNode s l n).result 6 0)

/-- NODE_RESTORE (R141). -/
def cmdNodeRestore (s : State) (l n : Nat) : State :=
  s.inRun 7 (fun s =>
    if 3 < l ∨ nodeOk n = false then s.result 7 1
    else
      match ((s.loop l).node n).state with
      | .isolated => (restoreNode s l n).result 7 0
      | .absent | .joining | .ready | .waiting | .failed => s.result 7 1)

/-- FAN_CLEAR (R111). -/
def cmdFanClear (s : State) (f : Nat) : State :=
  s.inRun 8 (fun s =>
    if f < s.count .fan ∧ (s.fan.fan f).state = .fault then (fanClear s f).result 8 0 else s.result 8 1)

/-- HOLDS_CLEAR (R54). -/
def cmdHoldsClear (s : State) (z : Nat) : State :=
  s.inRun 9 (fun s => if z = 255 ∨ z < s.count .zone then (guidHoldsClear s z).result 9 0 else s.result 9 1)

/-- R142, R174: the five counters of a loop at 0. -/
def Loop.clearCounters (L : Loop) : Loop :=
  { L with framesSent := 0, timeouts := 0, checkErrors := 0, stale := 0, misses := 0 }

/-- R166, R174: the counters of the block at 060h and of every loop at 0. -/
def State.clearCounters (s : State) : State :=
  { s with
    live := { s.live with dropped := 0, laneDrops := 0, clamps := 0, lastDropped := 0 }
    loops := loopNums.foldl (fun t l => Tab.set Loop.init t l (s.loop l).clearCounters) s.loops }

/-- COUNTERS_CLEAR (R174). -/
def cmdCountersClear (s : State) : State := s.inRun 10 (fun s => s.clearCounters.result 10 0)

/-- R168: RESTART: the reset with Reset Cause 3. Like every reset it drops the snapshot of the host burst in progress, so a later
beat of that burst is taken by its own address and takes a snapshot of its own block (log 64). -/
def cmdRestart (s : State) : State := State.afterReset s.pending s.mem s.term.lines s.free 3

/-- A code not in Table 11.5 (R174; log 42). -/
def cmdUnknown (s : State) (code : Byte) : State := s.inRun code (fun s => s.result code 1)

/-- Table 11.5: the command that a command byte names. -/
def deviceCommand (s : State) (code : Byte) (a1 a2 : Nat) : State :=
  match code.toNat with
  | 1 => cmdLockGranule s a1
  | 2 => cmdUnlockGranule s a1
  | 3 => cmdLockTable s a1
  | 4 => cmdUnlockTable s a1
  | 5 => cmdLoopReset s a1
  | 6 => cmdNodeIsolate s a1 a2
  | 7 => cmdNodeRestore s a1 a2
  | 8 => cmdFanClear s a1
  | 9 => cmdHoldsClear s a1
  | 10 => cmdCountersClear s
  | 11 => cmdRestart s
  | _ => cmdUnknown s code

/-! ### Writes (R124, R173, R174, R175) -/

/-- The 16-bit value that lanes 2 and 3, or 0 and 1, of a write leave in a field. -/
def write16 (old : BitVec 16) (b : Beat) (lane : Nat) : BitVec 16 :=
  let pick (k : Nat) : Nat :=
    if Beat.lane b (lane + k) then (byteOf b.data (lane + k)).toNat else old.toNat / 256 ^ k % 256
  BitVec.ofNat 16 (pick 0 + 256 * pick 1)

/-- R175: a write to 020h: each pending bit written as 1 is cleared, but for HALTED, which stays set. -/
def clearPending (v : Live) (b : Beat) : Live :=
  { v with pendingAtt := v.pendingAtt &&& ~~~(write16 0 b 0 &&& ~~~(attnMask .halted)) }

/-- R173: bits 0 to 11 of Attention Enable are written. -/
def writeEnable (v : Live) (b : Beat) : Live := { v with enableAtt := write16 v.enableAtt b 2 &&& 0x0FFF#16 }

/-- R124: Plain Output is written. -/
def writePlain (v : Live) (b : Beat) : Live := { v with plainOut := write16 v.plainOut b 2 }

/-- R174: the command word is written on the beat's lanes (log 15), and lane 0 names a command. -/
def writeCommand (s : State) (b : Beat) : State :=
  let s := { s with live := { s.live with cmdWord := mergeWord s.live.cmdWord b.lanes b.data } }
  let arg (k : Nat) : Nat := if Beat.lane b k then (byteOf b.data k).toNat else 0
  if Beat.lane b 0 then deviceCommand s (byteOf b.data 0) (arg 1) (arg 2) else s

/-- R173: a write beat on the word at offset `o`. -/
def liveWord (s : State) (b : Beat) (o : Nat) : State :=
  if o = 0x20 then { s with live := writeEnable (clearPending s.live b) b }
  else if o = 0x40 then writeCommand s b
  else if o = 0x84 then { s with live := writePlain s.live b }
  else s

/-- The beat is answered by the Live Window: it ends the memory-side burst and takes the snapshot if it is the first. -/
def State.liveBeat (s : State) (b : Beat) : State := (s.dropHeld.noAccess b).takeSnapshot b

/-- The beat that a device command stands for: a burst of one beat at FFF040h. -/
def commandBeat (code : Byte) (a : CmdArgs) : Beat :=
  { write := true, addr := 0xFFF040#24, lanes := commandLanes a, data := commandData code a, len := .one, wrap := false, index := 0 }

/-- R174: a device command taken by its own beat: the beat takes its snapshot, the command word is stored, and the command
is carried out. -/
def State.takeCommand (s : State) (code : Byte) (a : CmdArgs) (f : State → State) : State :=
  let b := commandBeat code a
  s.hostBeat b (fun s =>
    let s := s.liveBeat b
    f { s with live := { s.live with cmdWord := mergeWord s.live.cmdWord b.lanes b.data } })

/-- LIVE_SNAPSHOT (R173): a read beat. -/
def execLiveSnapshot (b : Beat) (s : State) : Host.Outcome State Fault Refusal :=
  goOn (s.when_ (!b.write && s.inLive b) (fun s => s.hostBeat b (fun s =>
    let s := s.liveBeat b
    { s with port := { s.port with readData := s.snapshotWord b } })))

/-- LIVE_WRITE (R173): a write beat, whichever fields it covers. -/
def execLiveWrite (b : Beat) (s : State) : Host.Outcome State Fault Refusal :=
  goOn (s.when_ (b.write && s.inLive b) (fun s => s.hostBeat b (fun s =>
    let s := s.liveBeat b
    liveWord s b (s.liveOffset b))))

/-- ATTENTION_PENDING_WRITE (R175): a write beat that covers Attention Pending; its lanes on Attention Enable are taken
too (log 15). -/
def execAttentionPendingWrite (b : Beat) (s : State) : Host.Outcome State Fault Refusal :=
  goOn (s.when_ (b.write && s.inLive b && (Beat.lane b 0 || Beat.lane b 1)) (fun s => s.hostBeat b (fun u =>
    let t := u.liveBeat b
    if t.liveOffset b = 0x20 then { t with live := writeEnable (clearPending t.live b) b } else s)))

/-- PLAIN_OUTPUT_WRITE (R124): a write beat that covers Plain Output. -/
def execPlainOutputWrite (b : Beat) (s : State) : Host.Outcome State Fault Refusal :=
  goOn (s.when_ (b.write && s.inLive b && (Beat.lane b 2 || Beat.lane b 3)) (fun s => s.hostBeat b (fun u =>
    let t := u.liveBeat b
    if t.liveOffset b = 0x84 then { t with live := writePlain t.live b } else s)))

/-! ### The device commands as commands of the table -/

/-- LOCK_GRANULE (R160). -/
def execLockGranule (a : CmdArgs) (s : State) : Host.Outcome State Fault Refusal :=
  goOn (s.takeCommand 1 a (fun s => cmdLockGranule s (argVal a.arg1)))

/-- UNLOCK_GRANULE (R160). -/
def execUnlockGranule (a : CmdArgs) (s : State) : Host.Outcome State Fault Refusal :=
  goOn (s.takeCommand 2 a (fun s => cmdUnlockGranule s (argVal a.arg1)))

/-- LOCK_TABLE (R160). -/
def execLockTable (a : CmdArgs) (s : State) : Host.Outcome State Fault Refusal :=
  goOn (s.takeCommand 3 a (fun s => cmdLockTable s (argVal a.arg1)))

/-- UNLOCK_TABLE (R160). -/
def execUnlockTable (a : CmdArgs) (s : State) : Host.Outcome State Fault Refusal :=
  goOn (s.takeCommand 4 a (fun s => cmdUnlockTable s (argVal a.arg1)))

/-- LOOP_RESET (R139). -/
def execLoopReset (a : CmdArgs) (s : State) : Host.Outcome State Fault Refusal :=
  goOn (s.takeCommand 5 a (fun s => cmdLoopReset s (argVal a.arg1)))

/-- NODE_ISOLATE (R140). -/
def execNodeIsolate (a : CmdArgs) (s : State) : Host.Outcome State Fault Refusal :=
  goOn (s.takeCommand 6 a (fun s => cmdNodeIsolate s (argVal a.arg1) (argVal a.arg2)))

/-- NODE_RESTORE (R141). -/
def execNodeRestore (a : CmdArgs) (s : State) : Host.Outcome State Fault Refusal :=
  goOn (s.takeCommand 7 a (fun s => cmdNodeRestore s (argVal a.arg1) (argVal a.arg2)))

/-- FAN_CLEAR (R111). -/
def execFanClear (a : CmdArgs) (s : State) : Host.Outcome State Fault Refusal :=
  goOn (s.takeCommand 8 a (fun s => cmdFanClear s (argVal a.arg1)))

/-- HOLDS_CLEAR (R54). -/
def execHoldsClear (a : CmdArgs) (s : State) : Host.Outcome State Fault Refusal :=
  goOn (s.takeCommand 9 a (fun s => cmdHoldsClear s (argVal a.arg1)))

/-- COUNTERS_CLEAR (R174). -/
def execCountersClear (a : CmdArgs) (s : State) : Host.Outcome State Fault Refusal :=
  goOn (s.takeCommand 10 a cmdCountersClear)

/-- RESTART (R168). -/
def execRestart (a : CmdArgs) (s : State) : Host.Outcome State Fault Refusal := goOn (s.takeCommand 11 a cmdRestart)

/-- UNKNOWN_COMMAND (R174): a code that Table 11.5 does not list; one that it lists is another command (log 14). -/
def execUnknownCommand (code : Byte) (a : CmdArgs) (s : State) : Host.Outcome State Fault Refusal :=
  goOn (s.when_ (!knownCode code) (fun s => s.takeCommand code a (fun s => cmdUnknown s code)))

end Sys2Proof.Machine
end

