-- ==== Sys2Proof/Machine/Startup.lean ====
section
/-! DEFINITION. Resets, the Configuration Image, BUILD, the entry to RUN and the Section Clock (Sections 11.1 to 11.4), and
the notices that several units take. -/

namespace Sys2Proof.Machine

/-! ### Resets (R168) -/

/-- R168: a reset of this cause; memory, the lines of the terminals and the waiting commands are not the part's to reset. -/
def State.resetWith (s : State) (cause : Byte) : State := State.afterReset s.pending s.mem s.term.lines s.free cause

/-- POWER_ON_RESET (R168). -/
def execPowerOnReset (s : State) : Host.Outcome State Fault Refusal := goOn (s.resetWith 1)

/-- RESET_PIN (R168). -/
def execResetPin (s : State) : Host.Outcome State Fault Refusal := goOn (s.resetWith 2)

/-! ### The Configuration Image (R170, R171, Table 11.2) -/

/-- Byte `i` of the store; past the operand it reads FFh (log 16). -/
def storeByte (st : List Byte) (i : Nat) : Byte := st.getD i 0xFF

/-- A byte of the image as a number. -/
def img8 (st : List Byte) (i : Nat) : Nat := (storeByte st i).toNat

/-- A 16-bit field of the image. -/
def img16 (st : List Byte) (i : Nat) : Nat := img8 st i + 256 * img8 st (i + 1)

/-- `k` bytes of the image from `i`. -/
def imgBytes (st : List Byte) (i k : Nat) : List Byte := (List.range k).map (fun j => storeByte st (i + j))

/-- The Marker and the Format are right (R170). -/
def markerOk (st : List Byte) : Bool := decide (img8 st 0 = 0x44 ∧ img8 st 1 = 0x47 ∧ img8 st 2 = 1)

/-- R170: the CRC-32 of the image matches its trailer. -/
def checkOk (st : List Byte) : Bool :=
  let n := img16 st 4
  decide (bytesOfNat 4 (crc32 (imgBytes st 0 (n - 4))).toNat = imgBytes st (n - 4) 4)

/-- R170: the fault code of the frame, or none. -/
def frameFault (st : List Byte) : Option Byte :=
  if imgBytes st 0 6 = List.replicate 6 0xFF then some 1
  else if !(markerOk st && decide (342 ≤ img16 st 4 ∧ img16 st 4 ≤ 4096)) then some 2
  else if checkOk st then none
  else some 3

/-- Entry `e` of the image's Window Map, with its present flag as a number. -/
def imgWindow (st : List Byte) (e : Nat) : WinEntry × Nat :=
  ({ base := img16 st (8 + 5 * e), len := img16 st (10 + 5 * e), present := decide (img8 st (12 + 5 * e) = 1) },
   img8 st (12 + 5 * e))

/-- The Window Map of the image. -/
def imgWindows (st : List Byte) : List WinEntry := (List.range 8).map (fun e => (imgWindow st e).1)

/-- Two windows share no granule. -/
def apart (v w : WinEntry) : Bool := !v.present || !w.present || decide (v.base + v.len ≤ w.base ∨ w.base + w.len ≤ v.base)

/-- No two windows of a list share a granule. -/
def allApart : List WinEntry → Bool
  | [] => true
  | w :: ws => ws.all (apart w) && allApart ws

/-- The lengths of the present TABLE windows (R158, R171). -/
def tableGranules (ws : List WinEntry) : Nat :=
  ((ws.take 7).map (fun w => if w.present then w.len else 0)).sum

/-- R171: BAD_WINDOW. -/
def windowsOk (st : List Byte) : Bool :=
  let ws := imgWindows st
  (List.range 8).all (fun e => decide ((imgWindow st e).2 ≤ 1)) &&
    ws.all (fun w => !w.present || decide (0 < w.len ∧ w.base + w.len ≤ 0xFFF0)) && allApart ws &&
    decide (tableGranules ws ≤ 256)

/-- The kind a code of the Node Tables gives. -/
def kindOfCode : Nat → NodeKind
  | 1 => .bay
  | 2 => .gas
  | 3 => .fan
  | 4 => .light
  | 5 => .sign
  | _ => .none

/-- The kind code of loop `l`, address `a`. -/
def imgKind (st : List Byte) (l a : Nat) : Nat := img8 st (48 + 32 * l + a - 1)

/-- R171: BAD_NODE_TABLE. -/
def nodesOk (st : List Byte) : Bool := loopNums.all (fun l => addresses.all (fun a => decide (imgKind st l a ≤ 5)))

/-- Entry `t` of the terminal entries. -/
def imgTerm (st : List Byte) (t : Nat) : TermCfg :=
  let o := 176 + 8 * t
  { cands := (List.range 3).map (fun c => (img8 st (o + 2 * c), img8 st (o + 2 * c + 1))),
    activeLow := decide (img8 st (o + 6) = 1), pull := img8 st (o + 7) }

/-- The argument of a function code lies in the range of Table 7.1. -/
def argumentOk (c : Nat × Nat) : Bool :=
  match c.1 with
  | 1 | 2 | 7 => decide (c.2 ≤ 7)
  | 4 => decide (c.2 ≤ 47)
  | 6 => decide (1 ≤ c.2 / 16 % 8 ∧ c.2 / 16 % 8 ≤ 4)
  | 9 => decide (c.2 ≤ 15)
  | _ => true

/-- R171: BAD_TERMINAL. -/
def termsOk (st : List Byte) : Bool :=
  terminals.all (fun t =>
    (imgTerm st t).cands.all (fun c => decide (c.1 ≤ 9) && argumentOk c) &&
      decide (img8 st (182 + 8 * t) ≤ 1 ∧ img8 st (183 + 8 * t) ≤ 2))

/-- The Section Parameters of the image. -/
def imgParams (st : List Byte) : Params :=
  { replyTimeout := img8 st 304, gasPoll := img8 st 305, bayPoll := img16 st 306, fanPoll := img8 st 308,
    lightPoll := img8 st 309, signPoll := img8 st 310, startTimeout := img8 st 311, stopTimeout := img8 st 312,
    startInterval := img8 st 313, signInterval := img8 st 314, minLight := img8 st 315, purgePeriod := img16 st 316,
    coMax := img16 st 318, no2Max := img16 st 320, thresholds := imgBytes st 322 16 }

/-- A value in a range. -/
def between (lo v hi : Nat) : Bool := decide (lo ≤ v ∧ v ≤ hi)

/-- R171: BAD_PARAMETER. -/
def paramsOk (st : List Byte) : Bool :=
  let p := imgParams st
  between 2 p.replyTimeout 255 && between 1 p.gasPoll 60 && between 200 p.bayPoll 5000 && between 1 p.fanPoll 10 &&
    between 5 p.lightPoll 60 && between 10 p.signPoll 120 && between 10 p.startTimeout 120 && between 10 p.stopTimeout 120 &&
    between 1 p.startInterval 60 && between 1 p.signInterval 10 && between 0 p.minLight 100 &&
    between 60 p.purgePeriod 3600 && between 1 p.coMax 1000 && between 1 p.no2Max 200 &&
    thresholdsRange p (zoneOf p.thresholds) && thresholdsOrder (zoneOf p.thresholds)

/-- R170, R171: the fault code of the image, or none when it is accepted. -/
def imageFault (st : List Byte) : Option Byte :=
  match frameFault st with
  | some c => some c
  | none =>
    if !windowsOk st then some 4
    else if !nodesOk st then some 5
    else if !termsOk st then some 6
    else if !paramsOk st then some 7
    else none

/-- R1: the in-effect count of a table. -/
def tableCount (ws : List WinEntry) (t : Table) : Nat :=
  let w := ws.getD (tableId t) { base := 0, len := 0, present := false }
  if w.present then min (nativeMax t) (256 * w.len / recSize t) else 0

/-- R147: the in-effect slot count of the ring. -/
def slotCount (ws : List WinEntry) : Nat :=
  let w := ws.getD 7 { base := 0, len := 0, present := false }
  if w.present then min 64 ((256 * w.len - 64) / 48) else 0

/-- R167: what the image puts in force. -/
def imgCfg (st : List Byte) : Cfg :=
  let ws := imgWindows st
  { windows := ws, counts := tables.map (tableCount ws) ++ [slotCount ws], guarded := tableGranules ws,
    terms := terminals.map (imgTerm st), params := imgParams st }

/-- R128, R143: a loop's Node Table: configured nodes go to JOINING with their JOIN marks set, in address order. The loop's
counters go on (R142). -/
def imgLoop (st : List Byte) (l : Nat) (L : Loop) : Loop :=
  addresses.foldl (fun L a =>
    let k := kindOfCode (imgKind st l a)
    if k = .none then L
    else (L.setNode a { Node.init with kind := k, state := .joining }).setMark a .join) { L with nodes := [], order := [] }

/-- Table 1.11: the default ZONE record under the image's thresholds (log 38). -/
def defaultZone (c : Cfg) : ZoneRec := zoneOf ((List.range 30).map (defaultByte c .zone))

/-! ### BUILD (R172) -/

/-- How many records a stage of BUILD writes: a table, the ring header, the slots. -/
def State.buildCount (s : State) (stage : Nat) : Nat :=
  if stage < 7 then s.cfg.counts.getD stage 0
  else if stage = 7 then (if (s.window 7).present then 1 else 0)
  else s.ringCount

/-- The size in bytes of a record of a stage. -/
def buildSize (stage : Nat) : Nat := if stage < 7 then recSize (tables.getD stage .zone) else if stage = 7 then 64 else 48

/-- The next position at or after `b` with a record to write; stage 9 when there is none. -/
def State.buildSkip (s : State) : Nat → Build → Build
  | 0, _ => { stage := 9, index := 0, word := 0 }
  | k + 1, b =>
    if 9 ≤ b.stage then { stage := 9, index := 0, word := 0 }
    else if b.index < s.buildCount b.stage then b
    else s.buildSkip k { stage := b.stage + 1, index := 0, word := 0 }

/-- The byte that BUILD writes at an offset of a record of a stage. -/
def State.buildByte (s : State) (stage off : Nat) : Byte :=
  if stage < 7 then defaultByte s.cfg (tables.getD stage .zone) off else 0

/-- The address of a record of a stage. -/
def State.buildAddr (s : State) (b : Build) : Nat :=
  if b.stage < 7 then s.recAddr (.record (tables.getD b.stage .zone) b.index)
  else if b.stage = 7 then s.recAddr .header
  else s.recAddr (.slot b.index)

/-- R172: one burst of BUILD (log 13), a part grant. -/
def State.buildWrite (s : State) : State :=
  let b := s.build
  let words := buildSize b.stage / 4
  let n := burstSize (words - b.word)
  let bytes := (List.range (4 * n)).map (fun j => (s.buildAddr b + 4 * b.word + j, s.buildByte b.stage (4 * b.word + j)))
  let next : Build :=
    if b.word + n < words then { b with word := b.word + n } else { stage := b.stage, index := b.index + 1, word := 0 }
  let t := s.store bytes
  State.partGrant { t with build := s.buildSkip 10 next }

/-- R172, R165: BUILD has a word to write and the port is its own. -/
def State.buildDue (s : State) : Bool := decide (s.mode = .building) && decide (s.build.stage < 9) && s.partFree

/-- BUILD_WRITE (R172). -/
def execBuildWrite (s : State) : Host.Outcome State Fault Refusal := goOn (s.when_ s.buildDue State.buildWrite)

/-- The record in force of zone `z` at the Air Unit replaced. -/
def Air.setInForce (u : Air) (z : Nat) (r : ZoneRec) : Air := u.setZone z { u.zone z with inForce := r }

/-- The record in force of zone `z` at the Guidance Unit replaced. -/
def Guid.setInForce (u : Guid) (z : Nat) (r : ZoneRec) : Guid := u.setZone z { u.zone z with inForce := r }

/-- R22: a disabled record has the default image; an enabled one, of which no reset leaves any, stays. -/
def ZoneRec.orDefault (r d : ZoneRec) : ZoneRec := if r.enabled then r else d

/-- Every zone index. -/
def zoneNums : List Nat := List.range 16

/-- R22: the records in force at the Air Unit. -/
def Air.zoneDefaults (u : Air) (d : ZoneRec) : Air :=
  zoneNums.foldl (fun u z => u.setInForce z ((u.zone z).inForce.orDefault d)) u

/-- R22: the records in force at the Guidance Unit. -/
def Guid.zoneDefaults (u : Guid) (d : ZoneRec) : Guid :=
  zoneNums.foldl (fun u z => u.setInForce z ((u.zone z).inForce.orDefault d)) u

/-- R22: the ZONE records at the Terminal Block. -/
def Term.zoneDefaults (u : Term) (d : ZoneRec) : Term :=
  { u with zones := zoneNums.foldl (fun t z => Tab.set ZoneRec.init t z ((Tab.get ZoneRec.init t z).orDefault d)) u.zones }

/-- R22: the applied ZONE records at Table Capture. -/
def Applied.zoneDefaults (a : Applied) (d : ZoneRec) : Applied :=
  { a with zone := zoneNums.foldl (fun t z => Tab.set ZoneRec.init t z d) a.zone }

/-- R22, Table 1.11: the applied ZONE records take the image's default thresholds, at Table Capture and at every unit that
holds them. -/
def State.zoneDefaults (s : State) (d : ZoneRec) : State :=
  { s with
    capture := { s.capture with applied := s.capture.applied.zoneDefaults d }
    air := s.air.zoneDefaults d
    guid := s.guid.zoneDefaults d
    term := s.term.zoneDefaults d }

/-- R167: the image is accepted: it is taken into force, every granule is locked and the mode becomes BUILDING. -/
def State.accept (s : State) (st : List Byte) : State :=
  let c := imgCfg st
  let t : State :=
    { s with
      cfg := c
      mode := .building
      imageRevision := storeByte st 3
      guard := { s.guard with locks := lockRange 0 c.guarded }
      loops := loopNums.foldl (fun t l => Tab.set Loop.init t l (imgLoop st l (s.loop l))) s.loops }
  let t := t.zoneDefaults (defaultZone c)
  { t with build := t.buildSkip 10 { stage := 0, index := 0, word := 0 } }

/-- R170, R171: the image is refused: the fault code is recorded and the mode becomes HALTED. -/
def State.halt (s : State) (st : List Byte) (code : Byte) : State :=
  { s with
    mode := .halted
    configFault := code
    imageRevision := if code ≠ 1 ∧ markerOk st = true then storeByte st 3 else s.imageRevision
    live := s.live.attend .halted }

/-- R167, R170, R171: LOADING ends. -/
def State.loadImage (s : State) (st : List Byte) : State :=
  match imageFault st with
  | some c => s.halt st c
  | none => s.accept st

/-- CONFIGURATION_READ (R170). -/
def execConfigurationRead (store : List Byte) (s : State) : Host.Outcome State Fault Refusal :=
  goOn (s.when_ (decide (s.mode = .loading)) (fun s => s.loadImage store))

/-- R167: the entry to RUN: the loops' start tests, the terminals' functions, and the OUTPUT work of the Occupancy and the
Lighting Unit (log 29). -/
def State.enterRun (s : State) : State :=
  let s := { s with mode := .run }
  let s := loopNums.foldl State.loopEnterRun s
  s.termEnterRun.occEnterRun.lightEnterRun

/-- BUILD_COMPLETE (R167). -/
def execBuildComplete (s : State) : Host.Outcome State Fault Refusal :=
  goOn (s.when_ (decide (s.mode = .building ∧ s.build.stage = 9)) State.enterRun)

/-! ### The Section Clock (R169) -/

/-- R169: one tick; at an advance of the Section Time the Run Seconds of RUNNING fans rise (R112). -/
def State.tick (s : State) : State :=
  let t := { s with clock := s.clock + 1 }
  if t.clock % 1000 = 0 ∧ t.mode = .run then fanSecond t else t

/-- CLOCK_TICK (R169). -/
def execClockTick (s : State) : Host.Outcome State Fault Refusal := goOn s.tick

/-! ### Notices taken by several units -/

/-- R88: unit `u` takes a stage notice. -/
def takeStage (u : UnitId) (z k : Nat) (s : State) : State :=
  match u with
  | .guidance => guidStage s z k
  | .lighting => lightStage s z k
  | .fan => fanStage s z k
  | .terminal => termStage s z k
  | .occupancy | .air | .ring => s

/-- STAGE_NOTICE (R88). At the Lighting Unit it may come before a waiting override notice of the end of CLEARING (R68). -/
def execStageNotice (u : UnitId) (z k : Nat) (s : State) : Host.Outcome State Fault Refusal :=
  goOn (s.takePast (letsPass u) .air u (.stage z k) (takeStage u z k))

/-- R90: unit `u` takes an override notice. -/
def takeOverride (u : UnitId) (o : Override) (stages : List Nat) (s : State) : State :=
  match u with
  | .guidance => guidOverride s o stages
  | .lighting => lightOverride s o
  | .fan => fanOverride s o
  | .terminal => termOverride s o
  | .occupancy | .air | .ring => s

/-- OVERRIDE_NOTICE (R90). -/
def execOverrideNotice (u : UnitId) (o : Override) (s : State) : Host.Outcome State Fault Refusal :=
  match s.next? .air u with
  | some (.override p stages) => if p = o then goOn (takeOverride u o stages (s.taken .air u)) else goOn s
  | _ => goOn s

/-- R129: the owning unit takes a node notice. -/
def takeNotice (l n : Nat) (old new : NodeState) (u : UnitId) (s : State) : State :=
  match u with
  | .occupancy => occNotice s l n old new
  | .air => airNotice s l n old new
  | .fan => fanNotice s l n old new
  | .lighting => lightNotice s l n old new
  | .guidance => guidNotice s l n old new
  | .terminal | .ring => s

/-- NODE_NOTICE (R129). -/
def execNodeNotice (l : Fin 4) (n : Nat) (old new : NodeState) (s : State) : Host.Outcome State Fault Refusal :=
  match ownerOf (s.kindOf l n) with
  | none => goOn s
  | some u => goOn (s.take (.controller l) u (.nodeNotice n old new) (takeNotice l n old new u))

end Sys2Proof.Machine
end

