-- ==== Sys2Proof/Machine/Dispatch.lean ====
section
/-! DEFINITION. One arm for each command of the table, each a call of its meaning. -/

namespace Sys2Proof.Machine

/-- The effect of a command on everything but the queue. -/
def exec (i : Instr) (s : State) : Host.Outcome State Fault Refusal :=
  match i with
  | .powerOnReset => Sys2Proof.Machine.execPowerOnReset s
  | .resetPin => Sys2Proof.Machine.execResetPin s
  | .configurationRead store => Sys2Proof.Machine.execConfigurationRead store s
  | .buildWrite => Sys2Proof.Machine.execBuildWrite s
  | .buildComplete => Sys2Proof.Machine.execBuildComplete s
  | .startTestTimeout l => Sys2Proof.Machine.execStartTestTimeout l s
  | .clockTick => Sys2Proof.Machine.execClockTick s
  | .plainBeat b => Sys2Proof.Machine.execPlainBeat b s
  | .tableWriteBeat b => Sys2Proof.Machine.execTableWriteBeat b s
  | .commitReadBackDone => Sys2Proof.Machine.execCommitReadBackDone s
  | .ringWriteBeat b => Sys2Proof.Machine.execRingWriteBeat b s
  | .hostTableRead b => Sys2Proof.Machine.execHostTableRead b s
  | .reflectWrite => Sys2Proof.Machine.execReflectWrite s
  | .liveSnapshot b => Sys2Proof.Machine.execLiveSnapshot b s
  | .liveWrite b => Sys2Proof.Machine.execLiveWrite b s
  | .attentionPendingWrite b => Sys2Proof.Machine.execAttentionPendingWrite b s
  | .plainOutputWrite b => Sys2Proof.Machine.execPlainOutputWrite b s
  | .lockGranule a => Sys2Proof.Machine.execLockGranule a s
  | .unlockGranule a => Sys2Proof.Machine.execUnlockGranule a s
  | .lockTable a => Sys2Proof.Machine.execLockTable a s
  | .unlockTable a => Sys2Proof.Machine.execUnlockTable a s
  | .loopReset a => Sys2Proof.Machine.execLoopReset a s
  | .nodeIsolate a => Sys2Proof.Machine.execNodeIsolate a s
  | .nodeRestore a => Sys2Proof.Machine.execNodeRestore a s
  | .fanClear a => Sys2Proof.Machine.execFanClear a s
  | .holdsClear a => Sys2Proof.Machine.execHoldsClear a s
  | .countersClear a => Sys2Proof.Machine.execCountersClear a s
  | .restart a => Sys2Proof.Machine.execRestart a s
  | .unknownCommand code a => Sys2Proof.Machine.execUnknownCommand code a s
  | .fetchAttempt => Sys2Proof.Machine.execFetchAttempt s
  | .endDispatch l e => Sys2Proof.Machine.execEndDispatch l e s
  | .frameSent l e => Sys2Proof.Machine.execFrameSent l e s
  | .frameReceived l e bytes => Sys2Proof.Machine.execFrameReceived l e bytes s
  | .replyTimeout l e => Sys2Proof.Machine.execReplyTimeout l e s
  | .passThroughMiss l => Sys2Proof.Machine.execPassThroughMiss l s
  | .discoveryEchoTimeout l => Sys2Proof.Machine.execDiscoveryEchoTimeout l s
  | .probeDue l n => Sys2Proof.Machine.execProbeDue l n s
  | .probeTimeout l e => Sys2Proof.Machine.execProbeTimeout l e s
  | .repairTestDue l => Sys2Proof.Machine.execRepairTestDue l s
  | .repairTestSend l => Sys2Proof.Machine.execRepairTestSend l s
  | .repairTestTimeout l => Sys2Proof.Machine.execRepairTestTimeout l s
  | .nextPollDue l n => Sys2Proof.Machine.execNextPollDue l n s
  | .busyUntilReached l n => Sys2Proof.Machine.execBusyUntilReached l n s
  | .nodeNotice l n old new => Sys2Proof.Machine.execNodeNotice l n old new s
  | .hostRequestCompletion l slot => Sys2Proof.Machine.execHostRequestCompletion l slot s
  | .bayPollReply l n occupancy fault word => Sys2Proof.Machine.execBayPollReply l n occupancy fault word s
  | .modifyReply l n status word => Sys2Proof.Machine.execModifyReply l n status word s
  | .gasPollReply l n co no2 flags => Sys2Proof.Machine.execGasPollReply l n co no2 flags s
  | .fanPollReply l n flags speed => Sys2Proof.Machine.execFanPollReply l n flags speed s
  | .fanSetCompletion l n status => Sys2Proof.Machine.execFanSetCompletion l n status s
  | .lightPollReply l n levels => Sys2Proof.Machine.execLightPollReply l n levels s
  | .lightSetCompletion l n status levels => Sys2Proof.Machine.execLightSetCompletion l n status levels s
  | .signPollReply l n flags => Sys2Proof.Machine.execSignPollReply l n flags s
  | .showCompletion l n status content => Sys2Proof.Machine.execShowCompletion l n status content s
  | .freeLost z c count => Sys2Proof.Machine.execFreeLost z c count s
  | .freeGained z c count => Sys2Proof.Machine.execFreeGained z c count s
  | .occupiedAccepted z => Sys2Proof.Machine.execOccupiedAccepted z s
  | .faultAsserted z => Sys2Proof.Machine.execFaultAsserted z s
  | .faultWithdrawn z => Sys2Proof.Machine.execFaultWithdrawn z s
  | .presence ch => Sys2Proof.Machine.execPresence ch s
  | .traffic src z => Sys2Proof.Machine.execTraffic src z s
  | .queueRaised z => Sys2Proof.Machine.execQueueRaised z s
  | .queueWithdrawn z => Sys2Proof.Machine.execQueueWithdrawn z s
  | .routeCountRaised ch => Sys2Proof.Machine.execRouteCountRaised ch s
  | .routeCountLowered ch => Sys2Proof.Machine.execRouteCountLowered ch s
  | .gateFullNotice g raised => Sys2Proof.Machine.execGateFullNotice g raised s
  | .stageNotice u z k => Sys2Proof.Machine.execStageNotice u z k s
  | .overrideNotice u o => Sys2Proof.Machine.execOverrideNotice u o s
  | .alarmNotice raised => Sys2Proof.Machine.execAlarmNotice raised s
  | .entryEvent g => Sys2Proof.Machine.execEntryEvent g s
  | .exitEvent g => Sys2Proof.Machine.execExitEvent g s
  | .gateQueueNotice g raised => Sys2Proof.Machine.execGateQueueNotice g raised s
  | .smokeActive => Sys2Proof.Machine.execSmokeActive s
  | .smokeInactive => Sys2Proof.Machine.execSmokeInactive s
  | .feedbackNotice f t level => Sys2Proof.Machine.execFeedbackNotice f t level s
  | .holdExpiry place => Sys2Proof.Machine.execHoldExpiry place s
  | .refreshTimerExpiry n => Sys2Proof.Machine.execRefreshTimerExpiry n s
  | .presenceTimerExpiry ch => Sys2Proof.Machine.execPresenceTimerExpiry ch s
  | .freshnessTimerExpiry l n => Sys2Proof.Machine.execFreshnessTimerExpiry l n s
  | .trafficTimerExpiry z => Sys2Proof.Machine.execTrafficTimerExpiry z s
  | .holdDownExpiry z => Sys2Proof.Machine.execHoldDownExpiry z s
  | .purgeTimerExpiry => Sys2Proof.Machine.execPurgeTimerExpiry s
  | .startTimerExpiry f => Sys2Proof.Machine.execStartTimerExpiry f s
  | .stopTimerExpiry f => Sys2Proof.Machine.execStopTimerExpiry f s
  | .startIntervalExpiry => Sys2Proof.Machine.execStartIntervalExpiry s
  | .levelChange t high => Sys2Proof.Machine.execLevelChange t high s
  | .debounceExpiry t => Sys2Proof.Machine.execDebounceExpiry t s
  | .smokeDebounceExpiry => Sys2Proof.Machine.execSmokeDebounceExpiry s
  | .exitQueueExpiry t => Sys2Proof.Machine.execExitQueueExpiry t s
  | .functionEvaluation k n => Sys2Proof.Machine.execFunctionEvaluation k n s
  | .bayCommit n => Sys2Proof.Machine.execBayCommit n s
  | .channelCommit n => Sys2Proof.Machine.execChannelCommit n s
  | .fanCommit n => Sys2Proof.Machine.execFanCommit n s
  | .groupCommit n => Sys2Proof.Machine.execGroupCommit n s
  | .zoneCommitAir n => Sys2Proof.Machine.execZoneCommitAir n s
  | .zoneCommitGuidance n => Sys2Proof.Machine.execZoneCommitGuidance n s
  | .gateCommit n => Sys2Proof.Machine.execGateCommit n s
  | .signCommit n => Sys2Proof.Machine.execSignCommit n s
  | .abandonedFrameTimeout l e => Sys2Proof.Machine.execAbandonedFrameTimeout l e s

end Sys2Proof.Machine
end

