-- ==== Sys2Proof/Safety.lean ====
section
/-! DEFINITION. Invariants of the part (what holds in every state that its steps reach) and frames (what a command leaves
as it was). -/

namespace Sys2Proof.Machine

/-- No element of a list stands in it twice. -/
def distinct {α : Type} [DecidableEq α] : List α → Bool
  | [] => true
  | x :: xs => decide (x ∉ xs) && distinct xs

/-- Law 10 (R162): the Reflect List holds each record at most once. -/
def Reflect.single (r : Reflect) : Bool := distinct r.list

/-- Memory is in its canonical form. -/
def State.memWf (s : State) : Bool := Memory.wf s.mem

/-- The grant counter stands at most at 16 (R165). -/
def Port.counterOk (p : Port) : Bool := decide (p.counter ≤ 16)

/-- The Hold List holds at most 64 holds (R47). -/
def Guid.holdsOk (u : Guid) : Bool := decide (u.holds.length ≤ 64)

/-- R143: a pending order lists each mark at most once. -/
def Loop.orderOk (L : Loop) : Bool := distinct L.order

/-- R150: every Host Queue has at most 8 entries. -/
def Ring.queuesOk (r : Ring) : Bool := r.queues.all (fun e => decide (e.2.length ≤ 8))

/-- R150 (log 46): the entries of a Host Queue have numbers of their own, each below the count of those taken. -/
def Ring.idsOk (r : Ring) : Prop :=
  ∀ l, ((r.queue l).map (fun e => e.id)).Nodup ∧ ∀ e ∈ r.queue l, e.id < r.taken

/-- Law 12 (R148, R150, R154): what has been fetched and not completed stands in the Host Queues, each request in one entry: Fetch
is Completed and the number of entries, and no number stands in two queues (log 46). -/
def Ring.fetchedOnce (r : Ring) : Prop :=
  r.fetch = r.completed + BitVec.ofNat 16 ((loopNums.map (fun l => (r.queue l).length)).sum) ∧
    ∀ l k, l ≠ k → ∀ x ∈ r.queue l, ∀ y ∈ r.queue k, x.id ≠ y.id

/-- R32, R33, R24: the counts of every zone are those of the bays, the Fault Condition follows them, and a bay is DISABLED or
CLOSED exactly as its record in force says. A class above 2, which R16 refuses, would count as CHARGING. -/
def Occ.counted (o : Occ) : Prop :=
  Tab.wf BayU.init o.bays = true ∧
  (∀ i, let b := o.bay i
    (b.state = .disabled ↔ b.inForce.enabled = false) ∧
      (b.inForce.enabled = true → (b.state = .closed ↔ b.inForce.closed = true))) ∧
  ∀ z, let x := o.zone z
    let number (p : BayU → Bool) : Nat :=
      (o.bays.filter (fun e => e.2.inForce.enabled && decide (e.2.inForce.zone = z) && p e.2)).length
    x.enabled = number (fun _ => true) ∧
      x.unknown = number (fun b => decide (b.state = .unknown)) ∧
      x.general = number (fun b => decide (b.state = .free ∧ b.inForce.cls = 0)) ∧
      x.accessible = number (fun b => decide (b.state = .free ∧ b.inForce.cls = 1)) ∧
      x.charging = number (fun b => decide (b.state = .free ∧ b.inForce.cls ≠ 0 ∧ b.inForce.cls ≠ 1)) ∧
      (z < 16 → x.fault = decide (x.enabled < 4 * x.unknown))

/-- R20, R40: the Input Map of the Occupancy Unit names a bay at exactly the input of its enabled record in force. -/
def Occ.mapped (o : Occ) : Prop :=
  ∀ k i, Tab.get none o.inputs k = some i ↔
    (o.bay i).inForce.enabled = true ∧ inputKey (o.bay i).inForce.loop (o.bay i).inForce.node (o.bay i).inForce.input = k

/-- Law 8 (R25), at the unit's Node Usable: a bay is FREE or OCCUPIED only while the node of its record in force is usable; and the
input of an enabled record is in its range (R16). -/
def Occ.confirmed (o : Occ) : Prop :=
  ∀ i, let b := o.bay i
    (b.inForce.enabled = true → b.inForce.input ≤ 15) ∧
      (b.state = .free ∨ b.state = .occupied → (o.node b.inForce.loop b.inForce.node).usable = true)

/-- Law 4 (R87) with R82 to R86, R89, R92 and R95: in every enabled zone the gas values, levels and demands are those that
the heads and terms give, the Applied Stage is below none of Gas Demand, Fail Demand, Stage Floor and D, the hold-down runs
exactly while D is below the stage, and CLEARING holds the stage at 4; a disabled zone stands at 0; the Alarm condition is
the one that the override and the demands give. -/
def Air.lawful (u : Air) : Prop :=
  u.alarm = alarmOf u ∧
  ∀ z, z < 16 → let x := u.zone z
    (x.inForce.enabled = true → gasOf u x = x ∧ demandOf x = x ∧ x.gasDemand ≤ x.stage ∧ x.failDemand ≤ x.stage ∧
      x.inForce.floor ≤ x.stage ∧ x.demand ≤ x.stage ∧ x.stage ≤ 4 ∧
      (u.override = .clearing → x.stage = 4 ∧ x.holdDown = none) ∧
      (u.override ≠ .clearing → (x.holdDown.isSome = true ↔ x.demand < x.stage))) ∧
    (x.inForce.enabled = false → x.stage = 0 ∧ x.gasDemand = 0 ∧ x.demand = 0 ∧ x.holdDown = none)

/-- R100, R102: the Group Stage, SHORT and Running Count of every group are those that its record and the fans give. -/
def Fan.groupsOk (u : Fan) : Prop :=
  ∀ g, let x := u.group g
    x.stage = u.stageFor x.inForce ∧ x.short = u.shortOf x ∧ x.running = u.runningOf x

/-- R104, R105, R107, R112: the start timer of a fan runs exactly in STARTING and its stop timer in STOPPING, and outside
STARTING and RUNNING its Commanded Speed is 0. -/
def Fan.timersOk (u : Fan) : Prop :=
  ∀ f, let x := u.fan f
    (x.state = .starting ↔ x.startTimer.isSome = true) ∧ (x.state = .stopping ↔ x.stopTimer.isSome = true) ∧
      (x.state ≠ .starting → x.state ≠ .running → x.command = 0)

/-- Law 5 (R104): at most one fan of the section is STARTING. -/
def Fan.oneStarting (u : Fan) : Bool := decide ((u.fans.filter (fun e => decide (e.2.state = .starting))).length ≤ 1)

/-- Law 6 (R103): a fan is in the Start Queue exactly when its state is QUEUED, and no fan appears there twice. -/
def Fan.queueOk (u : Fan) : Bool :=
  distinct (u.queue.map (fun e => e.1)) &&
    u.queue.all (fun e => decide ((u.fan e.1).state = .queued)) &&
    u.fans.all (fun e => decide (e.2.state = .queued → e.1 ∈ u.queue.map (fun p => p.1)))

/-- R166, Table 11.4: only bits 0 to 11 of Attention Pending and Attention Enable are used. -/
def Live.attentionOk (v : Live) : Bool := decide (v.pendingAtt &&& 0xF000#16 = 0 ∧ v.enableAtt &&& 0xF000#16 = 0)

/-- R159: Last Dropped Address is a word address. -/
def Live.droppedOk (v : Live) : Bool := decide (v.lastDropped.toNat % 4 = 0)

/-- Law 2 (R45): every hold in the Hold List targets a zone whose Guidance State is not CLOSED. -/
def Guid.holdsOpen (u : Guid) : Prop := ∀ h ∈ u.holds, (u.zone h.zone).gstate ≠ .closed

/-- R45: the Guidance State of every zone is the one that its reasons and counts give. -/
def Guid.evaluated (u : Guid) : Prop := ∀ z, (u.zone z).gstate = (u.zone z).state

/-- R42: H of every zone is the number of its holds in the Hold List. -/
def Guid.holdsCounted (u : Guid) : Prop :=
  ∀ z, (u.zone z).holds = (u.holds.filter (fun h => decide (h.zone = z))).length

/-- Law 1 (R53), at the copy of the free count that the unit keeps (R42): no zone has more holds than free GENERAL bays. -/
def Guid.holdsWithin (u : Guid) : Prop := ∀ z, (u.zone z).holds ≤ (u.zone z).general

/-- R46, R57: the FULL flag of every gate and the status of every sign are those that their terms give. -/
def Guid.shownOk (u : Guid) : Prop :=
  (∀ g, g < 8 → (u.gate g).full = gateFull u (u.gate g).inForce) ∧ ∀ i, (u.sign i).status = signStatus u (u.sign i)

/-- Law 11 (R65), with R69: every channel's Commanded Level and Channel Status are those that its terms give. -/
def Light.evaluated (u : Light) : Prop := ∀ i, (u.chan i).level = levelOf u (u.chan i) ∧ (u.chan i).status = statusOf u (u.chan i)

/-- R67: what the route notices among `bs` make of the Route Count `n` of channel `ch`, taken in their order; none when one would
lower a count of 0. -/
def routeChain (ch : Nat) : Nat → List Body → Option Nat
  | n, [] => some n
  | n, .routeRaised c :: bs => routeChain ch (if c = ch then n + 1 else n) bs
  | n, .routeLowered c :: bs => if c = ch ∧ n = 0 then none else routeChain ch (if c = ch then n - 1 else n) bs
  | n, _ :: bs => routeChain ch n bs

/-- Law 3 (R67): the Route Count of every channel, with the route notices on their way to the Lighting Unit taken, is the number of
times that the Routes of the Hold List name the channel. -/
def State.routesCounted (s : State) : Prop :=
  ∀ ch, routeChain ch (s.light.chan ch).routes
      ((s.chan.filter (fun m => decide (m.src = .guidance ∧ m.dst = .lighting))).map (fun m => m.body)) =
    some ((s.guid.holds.map (fun h => h.route.count ch)).sum)

/-- R58: SHOW work is marked for every sign that asks for it: in AUTO or BLANK mode, with other content than it shows or none
that is valid, its refresh timer stopped. -/
def State.showMarked (s : State) : Prop :=
  ∀ i, let g := s.guid.sign i
    g.inForce.auto = true → (g.valid = false ∨ g.shown ≠ signContent s.guid g.inForce) → g.refresh = none →
      (g.inForce.node, Mark.show) ∈ (s.loop g.inForce.loop).order

/-- R22, R62, R167, R168: in LOADING, which a reset alone enters, no SIGN record in force is enabled; no commit is held or on its
way, and no beat stands on the hold line, that could make one. -/
def State.loadingQuiet (s : State) : Prop :=
  s.mode = .loading → (∀ i, (s.guid.sign i).inForce.enabled = false) ∧ (∀ m ∈ s.chan, m.src ≠ .capture) ∧
    s.port.commit = none ∧ s.port.wait = none

/-- R151 (log 26): no entry that stands earliest in its Host Queue, and is not in hand, stands at a node whose state ends it. -/
def State.settled (s : State) : Prop := ∀ l, ∀ e ∈ earliest [] (s.ring.queue l), stateCheck (s.loop l) e = none

/-! ### What the Lane Filter keeps of a TABLE write beat -/

/-- R6: lane `j` of a beat at offset `off` is half of a 16-bit clamped field whose other byte the beat does not enable. -/
def halfOfField (p : Params) (k : Table) (b : Beat) (off j : Nat) : Prop :=
  ∃ f ∈ clampFields p k, f.width = 2 ∧
    ((off + j = f.off ∧ Beat.lane b (j + 1) = false) ∨ (off + j = f.off + 1 ∧ Beat.lane b (j - 1) = false))

/-- R3, R6: the lanes of a TABLE write beat that go to memory, where it covers no byte of Presence Hold (R7). -/
def keepsLane (p : Params) (k : Table) (b : Beat) (off j : Nat) : Prop :=
  Beat.lane b j = true ∧ off + j ≤ commitOffset k ∧ ¬halfOfField p k b off j

/-- R7: a beat at offset `off` covers a byte of Presence Hold. -/
def coversHold (k : Table) (b : Beat) (off : Nat) : Prop :=
  k = .channel ∧ ((off = 4 ∧ Beat.lane b 3 = true) ∨ (off = 8 ∧ Beat.lane b 0 = true))

/-- The beat at offset `off` carries the whole of a clamped field. -/
def ClampField.wholeIn (f : ClampField) (b : Beat) (off : Nat) : Bool :=
  decide (off ≤ f.off ∧ f.off < off + 4) && (List.range f.width).all (fun j => Beat.lane b (f.off - off + j))

/-- The value that the beat carries for the field. -/
def ClampField.valueIn (f : ClampField) (b : Beat) (off : Nat) : Nat :=
  natOfBytes ((List.range f.width).map (fun j => byteOf b.data (f.off - off + j)))

/-- R5: the fields of the beat that are replaced. -/
def replacedFields (p : Params) (k : Table) (b : Beat) (off : Nat) : List ClampField :=
  (clampFields p k).filter (fun f =>
    f.wholeIn b off && decide (clampTo f.lo f.hi (f.valueIn b off) ≠ f.valueIn b off))

/-! ### Frames -/

/-- The host can present a beat: none is held for its read-back, and none stands on the hold line (R155, R161). -/
def State.open_ (s : State) : Prop := s.port.commit = none ∧ s.port.wait = none

/-- The port can grant a host beat: one can be presented, and no part access goes first (R165). -/
def State.grantable (s : State) : Prop := s.open_ ∧ (s.partWork = false ∨ s.port.counter < 16)

/-- The attention bit is pending. -/
def State.attends (s : State) (a : Attn) : Prop := s.live.pendingAtt.getLsbD (attnBit a) = true

/-- Marks, applied records and ownership maps stand as they were. -/
def Capture.kept (c d : Capture) : Prop := d.marks = c.marks ∧ d.applied = c.applied ∧ d.maps = c.maps

/-- Everything outside the units, their messages and what their effects reach. -/
def State.coreKept (s t : State) : Prop :=
  t.pending = s.pending ∧ t.mem = s.mem ∧ t.mode = s.mode ∧ t.resetCause = s.resetCause ∧ t.configFault = s.configFault ∧
    t.imageRevision = s.imageRevision ∧ t.clock = s.clock ∧ t.cfg = s.cfg ∧ t.build = s.build ∧ t.port = s.port ∧
    t.capture = s.capture

/-- Attention bits are only set, and nothing else of the Live Window's registers changes. -/
def State.liveKept (s t : State) : Prop :=
  { t.live with pendingAtt := 0 } = { s.live with pendingAtt := 0 } ∧
    t.live.pendingAtt &&& s.live.pendingAtt = s.live.pendingAtt

/-- Nothing of a loop changes but its pending order. -/
def State.loopsKept (s t : State) : Prop := ∀ l, { t.loop l with order := [] } = { s.loop l with order := [] }

/-- The Reflect List only grows at its tail. -/
def State.reflectKept (s t : State) : Prop :=
  t.reflect.current = s.reflect.current ∧ ∃ rs, t.reflect.list = s.reflect.list ++ rs

/-- At most one message has been taken, and new ones stand behind the old. -/
def State.chanKept (s t : State) : Prop :=
  ∃ ms, t.chan = s.chan ++ ms ∨ (∃ src dst, t.chan = dropMsg src dst s.chan ++ ms) ∨
    t.chan = dropPast (letsPass .lighting) .air .lighting s.chan ++ ms

/-- The units of the section stand as they were. -/
def State.unitsKept (s t : State) : Prop :=
  t.occ = s.occ ∧ t.guid = s.guid ∧ t.light = s.light ∧ t.air = s.air ∧ t.fan = s.fan ∧ t.term = s.term

/-- The unit at which a command is an event; the owner of a node notice follows from the Node Table (R129). -/
def unitOf (s : State) : Instr → Option UnitId
  | .bayPollReply _ _ _ _ _ | .modifyReply _ _ _ _ | .bayCommit _ => some .occupancy
  | .freeLost _ _ _ | .freeGained _ _ _ | .occupiedAccepted _ | .faultAsserted _ | .faultWithdrawn _ | .entryEvent _
  | .exitEvent _ | .gateQueueNotice _ _ | .holdExpiry _ | .refreshTimerExpiry _ | .signPollReply _ _ _
  | .showCompletion _ _ _ _ | .zoneCommitGuidance _ | .gateCommit _ | .signCommit _ => some .guidance
  | .presence _ | .presenceTimerExpiry _ | .routeCountRaised _ | .routeCountLowered _ | .lightPollReply _ _ _
  | .lightSetCompletion _ _ _ _ | .channelCommit _ => some .lighting
  | .gasPollReply _ _ _ _ _ | .freshnessTimerExpiry _ _ | .traffic _ _ | .trafficTimerExpiry _ | .queueRaised _
  | .queueWithdrawn _ | .holdDownExpiry _ | .smokeActive | .smokeInactive | .purgeTimerExpiry | .zoneCommitAir _ => some .air
  | .fanPollReply _ _ _ _ | .fanSetCompletion _ _ _ | .feedbackNotice _ _ _ | .startTimerExpiry _ | .stopTimerExpiry _
  | .startIntervalExpiry | .fanCommit _ | .groupCommit _ => some .fan
  | .levelChange _ _ | .debounceExpiry _ | .smokeDebounceExpiry | .exitQueueExpiry _ | .functionEvaluation _ _
  | .gateFullNotice _ _ | .alarmNotice _ => some .terminal
  | .hostRequestCompletion _ _ => some .ring
  | .stageNotice u _ _ | .overrideNotice u _ => some u
  | .nodeNotice l n _ _ => ownerOf (s.kindOf l n)
  | _ => none

/-- The loop at whose controller a command is an event. -/
def loopOf : Instr → Option Nat
  | .startTestTimeout l | .endDispatch l _ | .frameSent l _ | .frameReceived l _ _ | .replyTimeout l _ | .passThroughMiss l
  | .discoveryEchoTimeout l | .probeDue l _ | .probeTimeout l _ | .repairTestDue l | .repairTestSend l
  | .repairTestTimeout l | .nextPollDue l _ | .busyUntilReached l _ | .abandonedFrameTimeout l _ => some l
  | _ => none

/-! ### What an event leaves behind, where several statements say so -/

/-- R40, R42: the FREE notices of zone `z`, class `c`, among bodies: each lost carries one less than the count before it, each
gained one more, from the count `n` on; the count after the last, none when one does not. A class above 2, which R16 refuses,
would count as CHARGING. -/
def freeChain (z c : Nat) : Nat → List Body → Option Nat
  | n, [] => some n
  | n, .freeLost x k v :: bs =>
    if x = z ∧ min k 2 = c then (if v = n - 1 then freeChain z c v bs else none) else freeChain z c n bs
  | n, .freeGained x k v :: bs =>
    if x = z ∧ min k 2 = c then (if v = n + 1 then freeChain z c v bs else none) else freeChain z c n bs
  | n, _ :: bs => freeChain z c n bs

/-- The FREE notices among messages, in their order: gained or lost, the zone and the class. -/
def freeNotices (ms : List Msg) : List (Bool × Nat × Nat) :=
  ms.filterMap (fun m =>
    match m.body with
    | .freeLost z c _ => some (false, z, c)
    | .freeGained z c _ => some (true, z, c)
    | _ => none)

/-- R40, R42: every FREE notice among `ms` carries the count of its zone and class as the event has left it by then, and the
last one the count after the event. -/
def Occ.tells (o p : Occ) (ms : List Msg) : Prop :=
  ∀ z c, c < 3 → freeChain z c ((o.zone z).free c) (ms.map (fun m => m.body)) = some ((p.zone z).free c)

/-- R137: the entry of loop `l` to PROBING, from `s` to `t`. A request in flight goes back to its node: a node in WAITING goes to
READY and keeps it, with its frame, Sequence and Retry Count; the JOIN of a node in JOINING or FAILED is not kept and its mark
is set again. No other node changes. Discovery sends its ECHO to the first node that is neither ABSENT nor ISOLATED, and
ends at once in DEAD where there is none. -/
def State.probes (s : State) (l : Nat) (t : State) : Prop :=
  let L := s.loop l
  let inFlight (m : Nat) : Prop := ∃ f, (L.endA = some f ∨ L.endB = some f) ∧ f.work = .request m ∧ f.reply = true
  let takes (m : Nat) : Bool := decide ((L.node m).state ≠ .absent ∧ (L.node m).state ≠ .isolated)
  t.attends .loopBroken ∧ (t.loop l).endB = none ∧ (t.loop l).both = false ∧
    (∀ m, inFlight m →
      ((L.node m).state = .waiting → (t.loop l).node m = { L.node m with state := .ready }) ∧
      ((L.node m).state = .joining ∨ (L.node m).state = .failed →
        (t.loop l).node m = { L.node m with out := none, retry := 0 } ∧ (m, Mark.join) ∈ (t.loop l).order)) ∧
    (∀ m, ¬inFlight m → (t.loop l).node m = L.node m) ∧
    (∀ m, addresses.find? takes = some m → (t.loop l).state = .probing ∧
      (t.loop l).disc = some { next := m + 1, current := some m, behind := [], answered := false } ∧
      (t.loop l).endA =
        some { frame := echoFrame m, work := .discovery m, timer := none, reply := true, pass := false }) ∧
    (addresses.find? takes = none → (t.loop l).state = .dead ∧ (t.loop l).disc = none ∧ (t.loop l).endA = none ∧
      (t.loop l).repair = some (s.clock + 5000))

/-- R137: split discovery of loop `l` ends, from `s` to `t`, with the Reach `r` of its last node `n`: the loop goes to BROKEN when
any node answered and to DEAD otherwise, and each UNREACHED node that is not FAILED (nor ABSENT or ISOLATED) goes to FAILED,
cause UNREACHED. Its request ends as R132 gives for a failure, and its notice follows, node by node in address order. -/
def State.discovered (s : State) (l n : Nat) (r : Reach) (answered : Bool) (t : State) : Prop :=
  let L := s.loop l
  let node (m : Nat) : Node := if m = n then { L.node m with reach := r } else L.node m
  let fails (m : Nat) : Bool := decide ((node m).reach = .unreached ∧ (node m).state ≠ .failed ∧ (node m).state ≠ .absent ∧
    (node m).state ≠ .isolated)
  let msg (u : UnitId) (b : Body) : Msg := { src := .controller l, dst := u, body := b }
  let ended (m : Nat) : List Msg :=
    match (node m).out with
    | none => []
    | some x =>
      match x.source with
      | .mark _ => []
      | .host slot id => [msg .ring (.hostStep slot id m (.ended 5 3))]
  let notice (m : Nat) : List Msg := ((ownerOf (node m).kind).map (fun u => msg u (.nodeNotice m (node m).state .failed))).toList
  (t.loop l).state = (if answered then .broken else .dead) ∧ (t.loop l).disc = none ∧
    (t.loop l).repair = some (s.clock + 5000) ∧
    (∀ m ∈ addresses, fails m = false → (t.loop l).node m = node m) ∧
    (∀ m ∈ addresses, fails m = true → t.attends .nodeFailed ∧
      (t.loop l).node m = { node m with state := .failed, cause := .unreached, out := none, retry := 0,
                                        probeDue := s.secs + 10, probeTaken := false } ∧
      ∀ x k, (node m).out = some x → x.source = .mark k → (m, k) ∈ (t.loop l).order) ∧
    t.chan = s.chan ++ (addresses.filter fails).flatMap (fun m => ended m ++ notice m)

/-- Table 7.1: the function that a candidate's code and argument name; code 0 names none (log 17 on STAGE_OUT). -/
def namesFunc (c : Nat × Nat) (f : Func) : Prop :=
  match f with
  | .gateIn g => c = (1, g)
  | .gateOut g => c = (2, g)
  | .smoke => c.1 = 3
  | .fanFb k => c = (4, k)
  | .plainIn => c.1 = 5
  | .stageOut z k => c.1 = 6 ∧ z = c.2 % 16 ∧ k = c.2 / 16 % 8
  | .gateFull g => c = (7, g)
  | .alarmOut => c.1 = 8
  | .plainOut i => c = (9, i)

/-- Table 7.1: a function is usable at terminal `k`, by the records in force at the Terminal Block. -/
def Term.canUse (u : Term) (k : Nat) : Func → Prop
  | .gateIn g | .gateOut g | .gateFull g => (Tab.get GateRec.init u.gates g).enabled = true
  | .fanFb f => (Tab.get FanRec.init u.fans f).enabled = true ∧ (Tab.get FanRec.init u.fans f).terminal = k
  | .stageOut z _ => (Tab.get ZoneRec.init u.zones z).enabled = true
  | .smoke | .plainIn | .alarmOut | .plainOut _ => True

/-- R115: what the candidates of terminal `k` give it: the first, in image order, that is usable, with its place; nothing where
none is. -/
def Term.gives (u : Term) (k : Nat) (cs : List (Nat × Nat)) : Option (Func × Nat) → Prop
  | none => ∀ c ∈ cs, ∀ f, namesFunc c f → ¬u.canUse k f
  | some (f, p) => (∃ c, cs[p]? = some c ∧ namesFunc c f) ∧ u.canUse k f ∧
    ∀ q c g, q < p → cs[q]? = some c → namesFunc c g → ¬u.canUse k g

/-- R88: the Applied Stage of zone `z` is `k` after an event from `s` to `t`. A change is dated by the Section Time, sets the STAGE
bit, lists the ZONE record and goes as a notice to the Fan, the Lighting, the Terminal and the Guidance Unit. -/
def State.stageGoes (s t : State) (z k : Nat) : Prop :=
  let x := s.air.zone z
  let y := t.air.zone z
  y.stage = k ∧ (k = x.stage → y.since = x.since) ∧
    (k ≠ x.stage → y.since = s.time ∧ t.attends .stage ∧ .record .zone z ∈ t.reflect.list ∧
      ∀ u ∈ [UnitId.fan, .lighting, .terminal, .guidance], { src := .air, dst := u, body := .stage z k } ∈ t.chan)

/-- R87: the stage rule at zone `z` of the record `r`, from `s` to `t`, at the D it has in `t`: held in CLEARING, else raised to D at
once, or kept with the hold-down running exactly while D is below it. -/
def State.stageRuled (s t : State) (z : Nat) (r : ZoneRec) : Prop :=
  let x := s.air.zone z
  let y := t.air.zone z
  (s.air.override = .clearing → y.stage = x.stage ∧ y.since = x.since ∧ y.holdDown = x.holdDown) ∧
  (s.air.override ≠ .clearing →
    (x.stage < y.demand → s.stageGoes t z y.demand ∧ y.holdDown = none) ∧
    (y.demand ≤ x.stage → s.stageGoes t z x.stage) ∧ (y.demand = x.stage → y.holdDown = none) ∧
    (y.demand < x.stage → y.holdDown = (if x.holdDown.isSome then x.holdDown else
      some (s.clock + 1000 * (if r.holdDown = 0 then 1800 else 15 * r.holdDown)))))

/-- R164, R165, R155 (log 10): what the access `a` of the beat `b`, which has stood on the hold line, does right after the part's
grant, from `m` to `t`. A write reaches memory; a RING write notes a lane of Producer (R148); a TABLE write stages its record or
is held for its read-back (R4, R8); a read returns memory's word, and one of a record that is behind finds it current. -/
def State.standing (m : State) (b : Beat) (a : Access) (t : State) : Prop :=
  t.port.wait = none ∧ t.port.counter ≤ 1 ∧
  match a with
  | .write ws => { t with port := m.port } = { m with mem := Memory.writeAll m.mem ws } ∧ t.port.commit = m.port.commit
  | .ring ws producer => t.port.commit = m.port.commit ∧ { t with port := m.port } =
      { m with mem := Memory.writeAll m.mem ws
               ring := { m.ring with causeProducer := m.ring.causeProducer || producer } }
  | .read none => { t with port := m.port } = m ∧ t.port.commit = m.port.commit ∧
      t.port.readData = Memory.readWord m.mem (Beat.word b)
  | .read (some r) => { t with port := m.port, mem := m.mem, reflect := m.reflect } = m ∧ t.port.commit = m.port.commit ∧
      t.port.readData = Memory.readWord t.mem (Beat.word b) ∧
      ((m.mode ≠ .run ∨ m.behind r = false) → t.mem = m.mem ∧ t.reflect = m.reflect) ∧
      (m.mode = .run → r ∈ m.reflect.list → t.reflect.list = m.reflect.list.filter (fun q => decide (q ≠ r)) ∧
        ∀ p ∈ m.partBytes r, Memory.read t.mem (m.recAddr r + p.1) = p.2) ∧
      (m.mode = .run → ∀ bs, m.reflect.current = some (r, bs) → t.reflect.current = none ∧
        (r ∉ m.reflect.list → t.reflect.list = m.reflect.list ∧ ((bs.flatten.map (fun p => p.1)).Nodup →
          ∀ p ∈ bs.flatten, Memory.read t.mem (m.recAddr r + p.1) = p.2)))
  | .table ws k i commits =>
      { t with port := m.port, capture := m.capture, reflect := m.reflect } = { m with mem := Memory.writeAll m.mem ws } ∧
      (commits = true → t.port.commit = some (k, i) ∧ t.capture = m.capture ∧ t.reflect = m.reflect) ∧
      (commits = false → t.port.commit = m.port.commit ∧ (t.capture.mark k i).staged = true ∧
        ((m.capture.mark k i).staged = true → t.capture = m.capture ∧ t.reflect = m.reflect) ∧
        ((m.capture.mark k i).staged = false → (t.capture.mark k i).verdict = 2 ∧ .record k i ∈ t.reflect.list ∧
          t.capture.applied = m.capture.applied ∧ t.maps = m.maps))

/-- R103, R105, R107, R109: an observation of Feedback at the enabled fan `f`, from `s` to `t`, by the fan's state and its Wanted.
Of a RUNNING fan that is seen not running, R106 speaks. -/
def State.observed (s : State) (f : Nat) (running : Bool) (t : State) : Prop :=
  let x := s.fan.fan f
  let y := t.fan.fan f
  let runs : Prop := y.state = .running ∧ y.command = t.fan.speedOf s.maps f
  let stops : Prop := y.state = .stopping ∧ y.command = 0 ∧ y.startTimer = none ∧
    y.stopTimer = some (s.clock + 1000 * s.cfg.params.stopTimeout) ∧
    (x.inForce.node, Mark.output) ∈ (t.loop x.inForce.loop).order
  let queues : Prop := (y.wanted = true → y.state = .queued ∨ y.state = .starting) ∧ (y.wanted = false → y.state = .stopped)
  (running = true → x.state = .stopped ∨ x.state = .queued ∨ x.state = .starting →
    (y.wanted = true → runs ∧ y.startTimer = none ∧ y.starts = (if x.state = .starting then x.starts + 1 else x.starts)) ∧
    (y.wanted = false → stops)) ∧
  (running = true → x.state = .running → (y.wanted = true → runs) ∧ (y.wanted = false → stops)) ∧
  (running = false → x.state = .stopped ∨ x.state = .queued → queues) ∧
  (running = false → x.state = .starting →
    (y.wanted = true → y.state = .starting ∧ y.startTimer = x.startTimer ∧ y.command = t.fan.speedOf s.maps f) ∧
    (y.wanted = false → stops)) ∧
  (running = false → x.state = .stopping → y.stopTimer = none ∧ if x.inForce.isolate then y.state = .isolated else queues) ∧
  (running = true → x.state = .stopping → y.state = .stopping ∧ y.stopTimer = x.stopTimer) ∧
  (x.state = .fault ∨ x.state = .isolated → y.state = x.state ∧ y.cause = x.cause)

/-- R70: after an event of the Lighting Unit from `s` to `t`, OUTPUT work is marked on every LIGHT node whose desired levels the
event has changed or that it names, where they differ from its Last Set. -/
def State.lightMarked (s t : State) (named : List (Nat × Nat)) : Prop :=
  ∀ p ∈ nodePlaces, (s.light.desired s.maps p.1 p.2 ≠ t.light.desired s.maps p.1 p.2 ∨ p ∈ named) →
    (t.light.node p.1 p.2).lastSet ≠ some (t.light.desired s.maps p.1 p.2) → (p.2, Mark.output) ∈ (t.loop p.1).order

/-- R103, R104: the Start Queue of the Fan Unit from `s` to `t` by a command, in a unit that keeps law 6. The fans that stay keep
their order and their Override marks, which the override notice of NORMAL clears. A fan that joins does so with its mark set
exactly while the override copy is ACTIVE or CLEARING: then it stands behind every entry that carries the mark and ahead of
every one that does not, else at the tail. A fan whose FAN commit moves it may leave and join anew. The head may then have
been taken: no other fan is STARTING, the start interval timer has stopped, and the fan is STARTING at its group speed with
its start timer and the start interval timer started and OUTPUT work on its node. -/
def State.queueStep (s : State) (c : Instr) (t : State) : Prop :=
  let u := s.fan
  let v := t.fan
  ∃ (old stay : List (Nat × Bool)) (joined : List Nat),
    let q := if v.override ≠ .normal ∧ joined ≠ [] then
        stay.filter (fun e => e.2) ++ joined.map (fun f => (f, true)) ++ stay.filter (fun e => !e.2)
      else stay ++ joined.map (fun f => (f, false))
    (old = u.queue ∨ (c = .overrideNotice .fan .normal ∧ old = u.queue.map (fun e => (e.1, false)))) ∧
    (c = .overrideNotice .fan .normal → u.override ≠ .normal → v.override = .normal → ∀ e ∈ old, e.2 = false) ∧
    (∀ f ∈ joined, f ∉ u.queue.map (fun e => e.1) ∨ c = .fanCommit f) ∧
    stay = old.filter (fun e => decide (e.1 ∈ q.map (fun x => x.1) ∧ e.1 ∉ joined)) ∧
    (v.queue = q ∨ ∃ e, q = e :: v.queue ∧ (u.interval = none ∨ c = .startIntervalExpiry) ∧
      (∀ f, f ≠ e.1 → (v.fan f).state ≠ .starting) ∧
      v.interval = some (s.clock + 1000 * s.cfg.params.startInterval) ∧
      (let x := v.fan e.1
      x.state = .starting ∧ x.command = v.speedOf s.maps e.1 ∧
        x.startTimer = some (s.clock + 1000 * s.cfg.params.startTimeout) ∧
        (x.inForce.node, Mark.output) ∈ (t.loop x.inForce.loop).order))

/-- R104: the head of the Start Queue is taken: the queue is empty, or a fan is STARTING, or the start interval timer runs. -/
def Fan.headTaken (u : Fan) : Bool :=
  u.queue.isEmpty || u.fans.any (fun e => decide (e.2.state = .starting)) || u.interval.isSome

end Sys2Proof.Machine
end

