-- ==== Sys2Proof/Certificates/Slice0/Obligations.lean ====
section
/-! DEFINITION. The statements about the model, one definition each; OBLIGATIONS.json says what each rests on. -/

section Statements

open Sys2Proof Sys2Proof.Machine

/-! ### The machine: steps, resets, the image, BUILD, entry to RUN -/

/-- A step is the meaning of the command at the front of the queue, run with the queue's rest; an empty queue idles
(log 2). -/
def Obligations.StepRunsFrontCommand : Prop :=
  (∀ (s : State) (c : Instr) (rest : List Instr),
    step { s with pending := c :: rest } = exec c { s with pending := rest }) ∧
  ∀ s : State, s.pending = [] → step s = .next s

/-- Every command goes on in every state: no meaning faults and none refuses. -/
def Obligations.EveryCommandGoesOn : Prop := ∀ (c : Instr) (s : State), ∃ t, exec c s = .next t

/-- R168: the three resets end in the same state but for the Reset Cause; memory, the queue, the levels of the lines and the
model's counter of free values are not the part's to reset (log 6). RESTART comes by a beat, which the host can present.
What the spec gives each block there: R22, R23, R41, R64, R77, R98, R125, R128, R142, R147, R158, R166, R173 to R175. -/
def Obligations.ResetsAndResetValues : Prop :=
  let r := State.reset
  (∀ s : State,
    let after (cause : Byte) : State :=
      { r with pending := s.pending, mem := s.mem, resetCause := cause, term := Term.init s.term.lines, free := s.free }
    exec .powerOnReset s = .next (after 1) ∧ exec .resetPin s = .next (after 2) ∧
      ∀ a, s.open_ → exec (.restart a) s = .next (after 3)) ∧
  (r.mode = .loading ∧ r.resetCause = 1 ∧ r.configFault = 0 ∧ r.imageRevision = 0 ∧ r.time = 0 ∧ r.port.counter = 0 ∧
    r.port.commit = none ∧ r.port.wait = none ∧ r.guard.locks = 0 ∧ r.guard.hardZone = false ∧ r.guard.hardGroup = false ∧
    r.guard.hardFan = false ∧ r.reflect.list = [] ∧ r.reflect.current = none ∧ r.live.pendingAtt = 0 ∧ r.live.enableAtt = 0 ∧
    r.live.cmdWord = 0 ∧ r.live.result = 0 ∧ r.live.resultCmd = 0 ∧ r.live.plainOut = 0 ∧ r.live.dropped = 0 ∧
    r.live.laneDrops = 0 ∧ r.live.clamps = 0 ∧ r.live.lastDropped = 0) ∧
  (∀ t i, (r.capture.mark t i).staged = false ∧ (r.capture.mark t i).clamped = false ∧ (r.capture.mark t i).verdict = 1 ∧
    r.capture.held = none ∧ (r.capture.applied.at_ t i).enabled = false) ∧
  (∀ k, Tab.get none r.maps.input k = none ∧ Tab.get none r.maps.output k = none ∧
    Tab.get none r.maps.fanNode k = none ∧ Tab.get none r.maps.fanGroup k = none ∧
    Tab.get none r.maps.signNode k = none ∧ Tab.get none r.occ.inputs k = none) ∧
  (∀ i, (r.occ.bay i).state = .disabled ∧ (r.occ.bay i).pend = none ∧ (r.occ.bay i).agree = 0 ∧
    (r.occ.bay i).lastChange = 0 ∧ (r.occ.bay i).arrivals = 0) ∧
  (∀ z c, (r.occ.zone z).free c = 0 ∧ (r.occ.zone z).unknown = 0 ∧ (r.occ.zone z).enabled = 0 ∧
    (r.occ.zone z).fault = false ∧ (r.guid.zone z).free c = 0 ∧ (r.guid.zone z).holds = 0 ∧
    (r.guid.zone z).gstate = .closed ∧
    (r.guid.zone z).reasons = { host := false, air := false, override := false, fault := false, disabled := true }) ∧
  (∀ l n, r.occ.node l n = { usable := false, reported := none } ∧ r.guid.node l n = { usable := false, fault := false } ∧
    r.light.node l n = { usable := false, lastSet := none } ∧ Tab.get false r.fan.failed (nodeKey l n) = false ∧
    r.air.head l n = { ring := [], fault := false, zeroing := false, zeroFailed := false, fresh := none, usable := false }) ∧
  (r.guid.holds = [] ∧ r.guid.nextId = 0) ∧
  (∀ g, (r.guid.gate g).full = false ∧ (r.guid.gate g).queue = false ∧ (r.guid.gate g).entries = 0 ∧
    (r.guid.gate g).unguided = 0 ∧ (r.guid.gate g).exits = 0 ∧ (r.guid.gate g).lastTarget = 255) ∧
  (∀ i, (r.guid.sign i).shown = [Shown.blank, Shown.blank, Shown.blank, Shown.blank] ∧ (r.guid.sign i).valid = false ∧
    (r.guid.sign i).status = .ok ∧ (r.guid.sign i).refresh = none ∧ (r.guid.sign i).lastShow = 0) ∧
  (∀ i z, (r.light.chan i).level = 0 ∧ (r.light.chan i).status = .unassigned ∧ (r.light.chan i).routes = 0 ∧
    (r.light.chan i).timer = none ∧ r.light.stage z = 0 ∧ r.light.override = .normal) ∧
  (∀ z, let x := r.air.zone z
    x.stage = 0 ∧ x.since = 0 ∧ x.coLevel = 0 ∧ x.no2Level = 0 ∧ x.purge = false ∧ x.co = 0 ∧ x.no2 = 0 ∧
      x.gasUnknown = false ∧ x.noHeads = false ∧ x.gasDemand = 0 ∧ x.failDemand = 0 ∧ x.trafficTimer = none ∧ x.queue = 0 ∧
      x.trafficDemand = 0 ∧ x.demand = 0 ∧ x.holdDown = none ∧
      r.air.smoke = false ∧ r.air.override = .normal ∧ r.air.alarm = false ∧ r.air.purgeTimer = none) ∧
  (∀ f g z, let x := r.fan.fan f
    x.state = .stopped ∧ x.command = 0 ∧ x.reported = 0 ∧ x.runSeconds = 0 ∧ x.starts = 0 ∧ x.cause = .none ∧
      x.wanted = false ∧ x.feedback = .unknown ∧ x.notRunning = 0 ∧ x.startTimer = none ∧ x.stopTimer = none ∧
      x.termFb = none ∧ (r.fan.group g).stage = 0 ∧ (r.fan.group g).running = 0 ∧ (r.fan.group g).lead = 0 ∧
      (r.fan.group g).short = false ∧ Tab.get 0 r.fan.stages z = 0 ∧ r.fan.override = .normal ∧ r.fan.queue = [] ∧
      r.fan.interval = none) ∧
  (∀ t g z, let x := r.term.term t
    x.func = none ∧ x.deb = false ∧ x.timer = none ∧ x.exitTimer = none ∧ x.mark = false ∧
      Tab.get false r.term.queued g = false ∧ Tab.get false r.term.full g = false ∧ Tab.get 0 r.term.stages z = 0 ∧
      r.term.smokeDeb = false ∧ r.term.smokeTimer = none ∧ r.term.alarm = false ∧ r.term.override = .normal) ∧
  (∀ l n, let L := r.loop l
    L.state = .idle ∧ L.order = [] ∧ L.endA = none ∧ L.endB = none ∧ L.both = false ∧ L.missRun = 0 ∧ L.repair = none ∧
      L.repairDue = false ∧ L.disc = none ∧ L.framesSent = 0 ∧ L.timeouts = 0 ∧ L.checkErrors = 0 ∧ L.stale = 0 ∧
      L.misses = 0 ∧ (L.node n).kind = .none ∧ (L.node n).state = .absent ∧ (L.node n).reach = .a ∧ (L.node n).seq = 0 ∧
      (L.node n).retry = 0 ∧ (L.node n).out = none ∧ (L.node n).cause = .none ∧ (L.node n).probeDue = 0 ∧
      (L.node n).busy = none ∧ (L.node n).pollDue = 0) ∧
  ∀ l i, r.ring.queue l = [] ∧ r.ring.fetch = 0 ∧ r.ring.completed = 0 ∧ r.ring.index = 0 ∧ r.ring.blocked = none ∧
    r.ring.overrun = false ∧ r.ring.fetching = .idle ∧ r.ring.causeProducer = false ∧ r.ring.causeDeparture = false ∧ r.ring.taken = 0 ∧
    r.ring.slot i = { status := 0, detail := 0, replyLen := 0, notDone := 0, lastNode := 0, reply := [] }

/-- R167, R128, R142, R170, R171 with Tables 11.2 and 7.1: the checks of an image on its bytes, in their order and with their
codes; what an image gives the part; an image that fails a check halts the part with its code; one that passes is taken into
force, every guarded granule locked, every disabled ZONE record at the image's default thresholds (R22, Table 1.11), at Table
Capture as at its units, and every configured node JOINING with its JOIN mark set. Neither clears a counter of a loop.
Bytes past the store's operand read FFh (log 16); bit 7 of a STAGE_OUT argument is not looked at (log 17). -/
def Obligations.ImageJudged : Prop :=
  ∀ st : List Byte,
    let b (i : Nat) : Nat := (st.getD i 0xFF).toNat
    let w (i : Nat) : Nat := b i + 256 * b (i + 1)
    let there (e : Nat) : Prop := b (12 + 5 * e) = 1
    let base (e : Nat) : Nat := w (8 + 5 * e)
    let len (e : Nat) : Nat := w (10 + 5 * e)
    let whole (e : Nat) : Nat := if b (12 + 5 * e) = 1 then len e else 0
    let guarded : Nat := ((List.range 7).map whole).sum
    let argument (code a : Nat) : Prop :=
      (code = 1 ∨ code = 2 ∨ code = 7 → a ≤ 7) ∧ (code = 4 → a ≤ 47) ∧
        (code = 6 → 1 ≤ a / 16 % 8 ∧ a / 16 % 8 ≤ 4) ∧ (code = 9 → a ≤ 15)
    let blank : Prop := ∀ i, i < 6 → b i = 255
    let format : Prop := b 0 = 0x44 ∧ b 1 = 0x47 ∧ b 2 = 1 ∧ 342 ≤ w 4 ∧ w 4 ≤ 4096
    let check : Prop := (crc32 ((List.range (w 4 - 4)).map (fun i => st.getD i 0xFF))).toNat = w (w 4 - 4) + 65536 * w (w 4 - 2)
    let sound : Prop := ¬blank ∧ format ∧ check
    let windows : Prop :=
      (∀ e, e < 8 → b (12 + 5 * e) ≤ 1 ∧ (there e → 0 < len e ∧ base e + len e ≤ 0xFFF0)) ∧
        (∀ e f, e < f → f < 8 → there e → there f → base e + len e ≤ base f ∨ base f + len f ≤ base e) ∧ guarded ≤ 256
    let nodes : Prop := ∀ l a, l < 4 → 1 ≤ a → a ≤ 32 → b (47 + 32 * l + a) ≤ 5
    let terms : Prop := ∀ t, t < 16 → b (182 + 8 * t) ≤ 1 ∧ b (183 + 8 * t) ≤ 2 ∧
      ∀ c, c < 3 → b (176 + 8 * t + 2 * c) ≤ 9 ∧ argument (b (176 + 8 * t + 2 * c)) (b (177 + 8 * t + 2 * c))
    let periods : Prop :=
      (2 ≤ b 304 ∧ b 304 ≤ 255) ∧ (1 ≤ b 305 ∧ b 305 ≤ 60) ∧ (200 ≤ w 306 ∧ w 306 ≤ 5000) ∧ (1 ≤ b 308 ∧ b 308 ≤ 10) ∧
        (5 ≤ b 309 ∧ b 309 ≤ 60) ∧ (10 ≤ b 310 ∧ b 310 ≤ 120) ∧ (10 ≤ b 311 ∧ b 311 ≤ 120) ∧ (10 ≤ b 312 ∧ b 312 ≤ 120) ∧
        (1 ≤ b 313 ∧ b 313 ≤ 60) ∧ (1 ≤ b 314 ∧ b 314 ≤ 10)
    let limits : Prop := b 315 ≤ 100 ∧ (60 ≤ w 316 ∧ w 316 ≤ 3600) ∧ (1 ≤ w 318 ∧ w 318 ≤ 1000) ∧ (1 ≤ w 320 ∧ w 320 ≤ 200)
    let thresholds : Prop :=
      (w 322 ≤ w 318 ∧ w 324 ≤ w 318 ∧ w 326 ≤ w 318 ∧ w 328 ≤ w 318 ∧ w 330 ≤ w 320 ∧ w 332 ≤ w 320 ∧ w 334 ≤ w 320) ∧
        w 322 ≤ w 324 ∧ w 324 ≤ w 326 ∧ w 326 ≤ w 328 ∧ w 330 ≤ w 332 ∧ w 332 ≤ w 334 ∧ b 336 < w 322 ∧ b 337 < w 330
    let parameters : Prop := periods ∧ limits ∧ thresholds
    let c := imgCfg st
    let zone : ZoneRec :=
      { ZoneRec.init with
        co1 := w 322, co2 := w 324, co3 := w 326, coPurge := w 328, no21 := w 330, no22 := w 332, no23 := w 334
        coMargin := b 336, no2Margin := b 337 }
    ((imageFault st = some 1 ↔ blank) ∧ (imageFault st = some 2 ↔ ¬blank ∧ ¬format) ∧
      (imageFault st = some 3 ↔ ¬blank ∧ format ∧ ¬check) ∧ (imageFault st = some 4 ↔ sound ∧ ¬windows) ∧
      (imageFault st = some 5 ↔ sound ∧ windows ∧ ¬nodes) ∧ (imageFault st = some 6 ↔ sound ∧ windows ∧ nodes ∧ ¬terms) ∧
      (imageFault st = some 7 ↔ sound ∧ windows ∧ nodes ∧ terms ∧ ¬parameters) ∧
      (imageFault st = none ↔ sound ∧ windows ∧ nodes ∧ terms ∧ parameters)) ∧
    ((∀ e, e < 8 → c.windows[e]? = some { base := base e, len := len e, present := decide (b (12 + 5 * e) = 1) }) ∧
      (∀ id, id < 7 → c.counts.getD id 0 =
        min ([16, 12, 48, 2048, 64, 8, 32].getD id 0) (256 * whole id / [64, 64, 32, 16, 16, 64, 64].getD id 0)) ∧
      c.counts.getD 7 0 = min 64 ((256 * whole 7 - 64) / 48) ∧ c.guarded = guarded ∧
      (∀ t, t < 16 → c.terms[t]? = some
        { cands := [(b (176 + 8 * t), b (177 + 8 * t)), (b (178 + 8 * t), b (179 + 8 * t)), (b (180 + 8 * t), b (181 + 8 * t))],
          activeLow := decide (b (182 + 8 * t) = 1), pull := b (183 + 8 * t) }) ∧
      c.params =
        { replyTimeout := b 304, gasPoll := b 305, bayPoll := w 306, fanPoll := b 308, lightPoll := b 309, signPoll := b 310,
          startTimeout := b 311, stopTimeout := b 312, startInterval := b 313, signInterval := b 314, minLight := b 315,
          purgePeriod := w 316, coMax := w 318, no2Max := w 320,
          thresholds := (List.range 16).map (fun i => st.getD (322 + i) 0xFF) }) ∧
    (List.range 6).map kindOfCode = [.none, .bay, .gas, .fan, .light, .sign] ∧
    ∀ s : State, s.mode = .loading →
      (∀ code, imageFault st = some code → ∃ t, exec (.configurationRead st) s = .next t ∧ t.mode = .halted ∧
        t.configFault = code ∧ t.attends .halted ∧ t.live.attentionLine = true ∧ t.mem = s.mem ∧ t.cfg = s.cfg ∧
        t.loops = s.loops ∧ (3 ≤ code.toNat → t.imageRevision = st.getD 3 0xFF)) ∧
      (imageFault st = none → ∃ t, exec (.configurationRead st) s = .next t ∧ t.mode = .building ∧ t.cfg = c ∧
        t.imageRevision = st.getD 3 0xFF ∧ t.mem = s.mem ∧ t.reflect = s.reflect ∧ t.configFault = s.configFault ∧
        (∀ g, g < 256 → t.guard.locks.getLsbD g = decide (g < guarded)) ∧
        (∀ z, z < 16 → t.capture.applied.at_ .zone z = .zone zone ∧
          ((s.air.zone z).inForce.enabled = false → (t.air.zone z).inForce = zone) ∧
          ((s.guid.zone z).inForce.enabled = false → (t.guid.zone z).inForce = zone) ∧
          ((Tab.get ZoneRec.init s.term.zones z).enabled = false → Tab.get ZoneRec.init t.term.zones z = zone)) ∧
        ∀ l, l < 4 →
          let kind (n : Nat) : NodeKind := kindOfCode (b (47 + 32 * l + n))
          (t.loop l).order = (addresses.filter (fun n => decide (kind n ≠ .none))).map (fun n => (n, .join)) ∧
          (t.loop l).framesSent = (s.loop l).framesSent ∧ (t.loop l).timeouts = (s.loop l).timeouts ∧
          (t.loop l).checkErrors = (s.loop l).checkErrors ∧ (t.loop l).stale = (s.loop l).stale ∧
          (t.loop l).misses = (s.loop l).misses ∧
          ∀ n ∈ addresses, t.kindOf l n = kind n ∧
            ((t.loop l).node n).state = (if kind n = .none then .absent else .joining))

/-- R172, R22: one burst of BUILD writes the default bytes of consecutive words of one record and nothing else; it puts
nothing on the Reflect List, stages nothing and counts nothing, and it is a part grant, which sets the grant counter to 0
(R165), and a host beat that stands on the hold line follows it (State.standing, Safety.lean; log 10). The next words of the
record follow, then the next record of the table, then the tables in table-id order, the ring header and the slots; stages 0
to 6 are the tables, 7 the header, 8 the slots, 9 the end. The grouping into bursts is log 13's. The default image of Table 1.11 is written out byte by byte, a ZONE record's first 16 bytes being the image's thresholds,
and it agrees with the part-owned fields of the units right after reset. -/
def Obligations.BuildWritesDefaults : Prop :=
  let firstFrom (s : State) (k : Nat) (p : Build) : Prop :=
    k ≤ p.stage ∧ p.stage ≤ 9 ∧ p.index = 0 ∧ p.word = 0 ∧ (p.stage < 9 → 0 < s.buildCount p.stage) ∧
      ∀ j, k ≤ j → j < p.stage → s.buildCount j = 0
  ((List.range 9).map buildSize = [64, 64, 32, 16, 16, 64, 64, 64, 48] ∧
    ∀ (s : State) (k i n : Nat),
      (k < 7 → s.buildCount k = s.cfg.counts.getD k 0 ∧
        s.buildAddr { stage := k, index := i, word := n } = 256 * (s.window k).base + buildSize k * i ∧
        ∀ t, tables[k]? = some t → ∀ off, s.buildByte k off = defaultByte s.cfg t off) ∧
      s.buildCount 7 = (if (s.window 7).present then 1 else 0) ∧ s.buildCount 8 = s.ringCount ∧
      s.buildAddr { stage := 7, index := 0, word := n } = 256 * (s.window 7).base ∧
      s.buildAddr { stage := 8, index := i, word := n } = 256 * (s.window 7).base + 64 + 48 * i ∧
      ∀ off, s.buildByte 7 off = 0 ∧ s.buildByte 8 off = 0) ∧
  (∀ (s : State) (st : List Byte), s.mode = .loading → imageFault st = none →
    ∃ t, exec (.configurationRead st) s = .next t ∧ firstFrom t 0 t.build) ∧
  (∀ (s : State) (w : Standing), s.mode = .building → s.build.stage < 9 → s.partFree = true → s.port.wait = some w →
    ∃ m t, exec .buildWrite { s with port := { s.port with wait := none } } = .next m ∧ exec .buildWrite s = .next t ∧
      m.standing w.beat w.access t) ∧
  (∀ s : State, s.mode = .building → s.build.stage < 9 → s.port.grant = false → s.port.commit = none → s.port.wait = none →
    let p := s.build
    let words := buildSize p.stage / 4
    let n := burstSize (words - p.word)
    let a := s.buildAddr p + 4 * p.word
    ∃ t, exec .buildWrite s = .next t ∧ t.mode = .building ∧ t.port.counter = 0 ∧ t.reflect = s.reflect ∧
      t.capture = s.capture ∧ t.live = s.live ∧
      (∀ j, j < 4 * n → Memory.read t.mem (a + j) = s.buildByte p.stage (4 * p.word + j)) ∧
      (∀ x, (x < a ∨ a + 4 * n ≤ x) → Memory.read t.mem x = Memory.read s.mem x) ∧
      (p.index < s.buildCount p.stage →
        (p.word + n < words → t.build = { p with word := p.word + n }) ∧
        (words ≤ p.word + n → p.index + 1 < s.buildCount p.stage → t.build = { p with index := p.index + 1, word := 0 }) ∧
        (words ≤ p.word + n → s.buildCount p.stage ≤ p.index + 1 → firstFrom s (p.stage + 1) t.build))) ∧
  (∀ (st : List Byte) (off : Nat), off < 16 → defaultByte (imgCfg st) .zone off = st.getD (322 + off) 0xFF) ∧
  (∀ (c : Cfg) (off : Nat),
    (16 ≤ off → defaultByte c .zone off = (if off = 50 then 2 else if off = 51 then 16 else if off = 52 then 1 else 0)) ∧
    defaultByte c .group off = (if 12 ≤ off ∧ off ≤ 19 then 255 else if off = 36 then 1 else 0) ∧
    defaultByte c .fan off = (if off = 2 then 255 else if off = 9 then 1 else 0) ∧
    defaultByte c .bay off = (if off = 5 then 255 else if off = 9 then 1 else 0) ∧
    defaultByte c .channel off = (if off = 13 then 1 else 0) ∧
    defaultByte c .gate off = (if off ≤ 5 ∨ (12 ≤ off ∧ off ≤ 35) ∨ off = 40 then 255 else if off = 48 then 1 else 0) ∧
    defaultByte c .sign off = (if off ∈ [27, 31, 35, 39] then 3 else if off = 41 then 1 else 0)) ∧
  ∀ (c : Cfg) (t : Table) (i : Nat), ∀ p ∈ State.reset.partBytes (.record t i), p.2 = defaultByte c t p.1

/-- R167, R135, R115, R34, R64: the entry to RUN starts the test of each loop that has a node, gives each terminal without a
function its first usable candidate (Term.gives, by Table 7.1), and marks OUTPUT work on every BAY and LIGHT node. -/
def Obligations.EntryToRun : Prop :=
  ∀ s : State, s.mode = .building → s.build.stage = 9 →
    ∃ t, exec .buildComplete s = .next t ∧ t.mode = .run ∧ t.mem = s.mem ∧
      (∀ l, l < 4 → (s.loop l).state = .idle → (s.loop l).configured = true → (s.loop l).bothFree = true →
        (t.loop l).both = true ∧ (t.loop l).endB = none ∧
        (t.loop l).endA = some { frame := testFrame, work := .startTest, timer := none, reply := false, pass := true }) ∧
      (∀ l, l < 4 → ∀ n ∈ addresses, (s.kindOf l n = .bay ∨ s.kindOf l n = .light) → (n, Mark.output) ∈ (t.loop l).order) ∧
      ∀ k, k < 16 → (s.term.term k).func = none → s.term.gives k (s.termCfg k).cands (t.term.term k).func

/-! ### The memory path -/

/-- R156, R1, R147, R155: the class of a beat outside the Live Window goes by its word address: the window it lies in, while the
windows are in effect, and the record or slot. A plain beat, and one that lies in a window beyond its last record or slot (a
TABLE write where the Guard Map lets it pass, a RING write in RUN), passes to memory on its enabled lanes, or reads it, and
touches nothing of the part's. With the grant counter at 16 and work of the part's waiting, it stands on the hold line instead
(R165; log 10). -/
def Obligations.PlainBeatPasses : Prop :=
  (∀ (s : State) (b : Beat), s.inLive b = false →
    let inside (k : Nat) : Prop := (s.window k).present = true ∧ 256 * (s.window k).base ≤ Beat.word b ∧
      Beat.word b < 256 * ((s.window k).base + (s.window k).len)
    let alone (k : Nat) : Prop := inside k ∧ ∀ j, j < 8 → j ≠ k → ¬inside j
    let off (k : Nat) : Nat := Beat.word b - 256 * (s.window k).base
    (s.beatClass b = .plain ↔ (s.mode ≠ .building ∧ s.mode ≠ .run) ∨ ∀ k, k < 8 → ¬inside k) ∧
    (s.mode = .building ∨ s.mode = .run →
      (∀ t : Table, alone (tableId t) → s.beatClass b =
        (if off (tableId t) / recSize t < s.count t then .table t (off (tableId t) / recSize t) (off (tableId t) % recSize t)
         else .tableEnd t)) ∧
      (alone 7 → s.beatClass b =
        (if off 7 < 64 then .header (off 7)
         else if (off 7 - 64) / 48 < s.ringCount then .slot ((off 7 - 64) / 48) ((off 7 - 64) % 48) else .ringEnd)))) ∧
  ∀ (s : State) (b : Beat) (c : Instr),
    ((s.beatClass b = .plain ∧ c = .plainBeat b) ∨
      (b.write = false ∧ ((∃ k, s.beatClass b = .tableEnd k) ∨ s.beatClass b = .ringEnd) ∧ c = .plainBeat b) ∨
      (b.write = true ∧ (∃ k, s.beatClass b = .tableEnd k ∧ s.guarded k (Beat.word b) = false) ∧ c = .tableWriteBeat b) ∨
      (b.write = true ∧ s.mode = .run ∧ s.beatClass b = .ringEnd ∧ c = .ringWriteBeat b)) →
    (s.grantable → ∃ t, exec c s = .next t ∧ s.capture.kept t.capture ∧ t.reflect = s.reflect ∧ t.ring = s.ring ∧
      t.mode = s.mode ∧ t.guard = s.guard ∧ t.port.wait = none ∧
      (b.write = false → t.mem = s.mem ∧ t.port.readData = Memory.readWord s.mem (Beat.word b)) ∧
      (b.write = true →
        (∀ j, j < 4 → Beat.lane b j = true → Memory.read t.mem (Beat.word b + j) = byteOf b.data j) ∧
        ∀ x, (∀ j, j < 4 → Beat.lane b j = true → x ≠ Beat.word b + j) → Memory.read t.mem x = Memory.read s.mem x)) ∧
    (s.open_ → b.index = 0 → s.partWork = true → s.port.counter = 16 → (b.write = true → b.lanes ≠ 0) →
      ∃ t, exec c s = .next t ∧ t.mem = s.mem ∧ t.port.readData = s.port.readData ∧ t.port.counter = 16 ∧
        t.port.wait = some ⟨b, if b.write then .write (lanesOf (Beat.word b) b.lanes b.data) else .read none⟩)

/-- R158, R159: a TABLE write beat in a locked granule or a hard-locked table, and a RING write beat in BUILDING, is dropped whole
and counted, with no memory access, lane filtering, staging, commit or fetch; a TABLE write beat that neither covers is not,
and no read is. Every beat of a burst is judged so. A beat that enables no lane is judged and counted like any other by the
model's reading of R157 against R159 (log 66, DEDUCED). The first clause writes out the guard index and the flags. -/
def Obligations.GuardDropsLockedWrites : Prop :=
  (∀ (s : State) (k : Table) (a : Nat),
    let w (j : Nat) : WinEntry := s.window j
    let first : Nat := ((List.range (tableId k)).map (fun j => if (w j).present then (w j).len else 0)).sum
    tables.map tableId = [0, 1, 2, 3, 4, 5, 6] ∧
      (s.guarded k a = true ↔ s.guard.locks.getLsbD (first + (a - 256 * (w (tableId k)).base) / 256) = true ∨
        (k = .zone ∧ s.guard.hardZone = true) ∨ (k = .group ∧ s.guard.hardGroup = true) ∨
        (k = .fan ∧ s.guard.hardFan = true))) ∧
  ∀ (s : State) (b : Beat), s.open_ →
    let dropped (t : State) : Prop :=
      t.mem = s.mem ∧ t.live.dropped = satInc s.live.dropped 1 ∧ t.live.lastDropped = BitVec.ofNat 24 (Beat.word b) ∧
        t.attends .guardDrop ∧ s.capture.kept t.capture ∧ t.reflect = s.reflect ∧ t.ring = s.ring ∧ t.guard = s.guard ∧
        t.port.commit = none ∧ t.port.counter = s.port.counter ∧ t.port.readData = s.port.readData ∧
        t.live.clamps = s.live.clamps ∧ (s.capture.held = none → t.live.laneDrops = s.live.laneDrops)
    (∀ k, b.write = true → (s.beatClass b = .tableEnd k ∨ ∃ i off, s.beatClass b = .table k i off) →
      (s.guarded k (Beat.word b) = true → ∃ t, exec (.tableWriteBeat b) s = .next t ∧ dropped t) ∧
      (s.guarded k (Beat.word b) = false → ∃ t, exec (.tableWriteBeat b) s = .next t ∧
        t.live.dropped = s.live.dropped ∧ t.live.lastDropped = s.live.lastDropped)) ∧
    (s.mode = .building → b.write = true → ((∃ off, s.beatClass b = .header off) ∨ ∃ i off, s.beatClass b = .slot i off) →
      ∃ t, exec (.ringWriteBeat b) s = .next t ∧ dropped t) ∧
    (b.write = false → ∀ c ∈ [Instr.plainBeat b, .hostTableRead b, .liveSnapshot b], ∃ t, exec c s = .next t ∧
      t.live.dropped = s.live.dropped ∧ t.live.lastDropped = s.live.lastDropped)

/-- R3, R4, R6, R8, R157: a TABLE write beat on a record of any table, but for the bytes of Presence Hold
(PresenceHoldWhole). It reaches memory on the lanes it keeps alone, as they came where no clamped field lies; one or more
lost, or a held low byte discarded, counts once in Lane Drops. With the Commit byte kept the record's commit begins, else
the record is staged; with no lane kept neither. -/
def Obligations.StagingAndCommitting : Prop :=
  ∀ (s : State) (b : Beat) (k : Table) (i off : Nat), s.beatClass b = .table k i off → b.write = true →
    s.guarded k (Beat.word b) = false → s.grantable → ¬coversHold k b off →
    let keeps (j : Nat) : Prop := j < 4 ∧ keepsLane s.cfg.params k b off j
    let old := s.capture.mark k i
    ∃ t, exec (.tableWriteBeat b) s = .next t ∧
      (∀ j, keeps j → (∀ f ∈ clampFields s.cfg.params k, ¬(f.off ≤ off + j ∧ off + j < f.off + f.width)) →
        Memory.read t.mem (Beat.word b + j) = byteOf b.data j) ∧
      (∀ x, (∀ j, keeps j → x ≠ Beat.word b + j) → Memory.read t.mem x = Memory.read s.mem x) ∧
      t.capture.applied = s.capture.applied ∧ t.maps = s.maps ∧ t.capture.held = none ∧
      (∀ k' i', recKey k' i' ≠ recKey k i → t.capture.mark k' i' = s.capture.mark k' i') ∧
      (((∃ j, j < 4 ∧ Beat.lane b j = true ∧ ¬keeps j) ∨ s.capture.held.isSome = true) →
        t.live.laneDrops = satInc s.live.laneDrops 1) ∧
      ((∀ j, j < 4 → Beat.lane b j = true → keeps j) → s.capture.held = none → t.live.laneDrops = s.live.laneDrops) ∧
      ((∀ j, ¬keeps j) → t.mem = s.mem ∧ t.port.commit = none ∧ t.capture.marks = s.capture.marks ∧ t.reflect = s.reflect) ∧
      ((∃ j, keeps j ∧ off + j = commitOffset k) →
        t.port.commit = some (k, i) ∧ t.reflect = s.reflect ∧
        (t.capture.mark k i).staged = old.staged ∧ (t.capture.mark k i).verdict = old.verdict) ∧
      ((∃ j, keeps j) → (∀ j, keeps j → off + j ≠ commitOffset k) →
        t.port.commit = none ∧ (t.capture.mark k i).staged = true ∧
        (old.staged = true → (t.capture.mark k i).verdict = old.verdict ∧ t.reflect = s.reflect) ∧
        (old.staged = false → (t.capture.mark k i).verdict = 2 ∧ .record k i ∈ t.reflect.list))

/-- R5, R6 with Table 1.9A: a clamped field that a TABLE write beat carries whole goes to memory between its limits, each
replacement counts once in Clamps and sets the record's clamp mark; the byte of a 16-bit field that comes without the other
leaves memory as it was. -/
def Obligations.ClampedFields : Prop :=
  (∀ p : Params,
    (clampFields p .zone).map (fun f => (f.off, f.width, f.lo, f.hi)) =
      [(0, 2, 0, p.coMax), (2, 2, 0, p.coMax), (4, 2, 0, p.coMax), (6, 2, 0, p.coMax),
        (8, 2, 0, p.no2Max), (10, 2, 0, p.no2Max), (12, 2, 0, p.no2Max)] ∧
    (clampFields p .channel).map (fun f => (f.off, f.width, f.lo, f.hi)) = [(4, 1, p.minLight, 100), (5, 1, 0, 100), (6, 1, 0, 100)] ∧
    (clampFields p .gate).map (fun f => (f.off, f.width, f.lo, f.hi)) = [(8, 2, 30, 1800), (10, 2, 5, 600)] ∧
    clampFields p .group = [] ∧ clampFields p .fan = [] ∧ clampFields p .bay = [] ∧ clampFields p .sign = []) ∧
  (∀ lo hi v, lo ≤ hi → clampTo lo hi v = max lo (min hi v)) ∧
  ∀ (s : State) (b : Beat) (k : Table) (i off : Nat), s.beatClass b = .table k i off → b.write = true →
    s.guarded k (Beat.word b) = false → s.grantable → ¬coversHold k b off →
    let replaced := replacedFields s.cfg.params k b off
    ∃ t, exec (.tableWriteBeat b) s = .next t ∧
      (∀ f ∈ clampFields s.cfg.params k, f.wholeIn b off = true → ∀ j, j < f.width →
        Memory.read t.mem (Beat.word b + (f.off - off) + j) =
          (bytesOfNat f.width (clampTo f.lo f.hi (f.valueIn b off))).getD j 0) ∧
      (∀ j, j < 4 → halfOfField s.cfg.params k b off j →
        Memory.read t.mem (Beat.word b + j) = Memory.read s.mem (Beat.word b + j)) ∧
      t.live.clamps = satInc s.live.clamps replaced.length ∧
      (t.capture.mark k i).clamped = ((s.capture.mark k i).clamped || !replaced.isEmpty)

/-- R7, with R3 to R5 and R8: the beats of a CHANNEL record that cover a byte of Presence Hold. The low byte is held back
while the next beat of its burst can bring the high byte, and lost otherwise; the two together go to memory clamped to 10 to
3600; a high byte without its held low byte is lost. The other lanes of the beat go to memory as the Lane Filter leaves
them, and no other byte of memory changes; a beat that keeps the Commit byte begins the record's commit, one that keeps
another lane stages it, one that keeps none does neither. -/
def Obligations.PresenceHoldWhole : Prop :=
  ∀ (s : State) (b : Beat) (i : Nat), b.write = true → s.guarded .channel (Beat.word b) = false → s.grantable →
    let w := Beat.word b
    let p := s.cfg.params
    let old := s.capture.mark .channel i
    let others (t : State) : Prop := t.capture.applied = s.capture.applied ∧ t.maps = s.maps ∧
      ∀ k' i', recKey k' i' ≠ recKey .channel i → t.capture.mark k' i' = s.capture.mark k' i'
    let writes (t : State) (bytes : List (Nat × Byte)) : Prop :=
      (∀ x ∈ bytes, Memory.read t.mem x.1 = x.2) ∧
        ∀ a, (∀ x ∈ bytes, a ≠ x.1) → Memory.read t.mem a = Memory.read s.mem a
    let staged (t : State) : Prop := t.port.commit = none ∧ (t.capture.mark .channel i).staged = true ∧
      (old.staged = true → (t.capture.mark .channel i).verdict = old.verdict ∧ t.reflect = s.reflect) ∧
      (old.staged = false → (t.capture.mark .channel i).verdict = 2 ∧ .record .channel i ∈ t.reflect.list)
    let committing (t : State) : Prop := t.port.commit = some (.channel, i) ∧ t.reflect = s.reflect ∧
      (t.capture.mark .channel i).staged = old.staged ∧ (t.capture.mark .channel i).verdict = old.verdict
    let neither (t : State) : Prop := t.port.commit = none ∧ t.capture.marks = s.capture.marks ∧ t.reflect = s.reflect
    let dropsOne (t : State) (c : Bool) : Prop :=
      t.live.laneDrops = (if c then satInc s.live.laneDrops 1 else s.live.laneDrops)
    let commitByte : List (Nat × Byte) := if Beat.lane b 1 then [(w + 1, byteOf b.data 1)] else []
    (s.beatClass b = .table .channel i 4 → Beat.lane b 3 = true →
      let replaced := replacedFields p .channel b 4
      let kept := (clampFields p .channel).filter (fun f => f.wholeIn b 4)
      ∃ t, exec (.tableWriteBeat b) s = .next t ∧ others t ∧
        writes t (kept.map (fun f => (w + (f.off - 4), BitVec.ofNat 8 (clampTo f.lo f.hi (f.valueIn b 4))))) ∧
        t.live.clamps = satInc s.live.clamps replaced.length ∧
        (t.capture.mark .channel i).clamped = (old.clamped || !replaced.isEmpty) ∧
        (kept ≠ [] → staged t) ∧ (kept = [] → neither t) ∧
        (Beat.nextWord b = some (w + 4) → t.capture.held = some (i, byteOf b.data 3) ∧ dropsOne t s.capture.held.isSome) ∧
        (Beat.nextWord b ≠ some (w + 4) → t.capture.held = none ∧ dropsOne t true)) ∧
    (s.beatClass b = .table .channel i 8 → Beat.lane b 0 = true →
      (∀ lo, s.capture.held = some (i, lo) → b.index ≠ 0 →
        let v := lo.toNat + 256 * (byteOf b.data 0).toNat
        let hold := max 10 (min 3600 v)
        ∃ t, exec (.tableWriteBeat b) s = .next t ∧ others t ∧ t.capture.held = none ∧
          writes t ([(w - 1, BitVec.ofNat 8 hold), (w, BitVec.ofNat 8 (hold / 256))] ++ commitByte) ∧
          t.live.clamps = satInc s.live.clamps (if hold = v then 0 else 1) ∧
          (t.capture.mark .channel i).clamped = (old.clamped || decide (hold ≠ v)) ∧
          dropsOne t (Beat.lane b 2 || Beat.lane b 3) ∧
          (Beat.lane b 1 = true → committing t) ∧ (Beat.lane b 1 = false → staged t)) ∧
      ((∀ lo, s.capture.held = some (i, lo) → b.index = 0) →
        ∃ t, exec (.tableWriteBeat b) s = .next t ∧ others t ∧ t.capture.held = none ∧ writes t commitByte ∧
          t.live.clamps = s.live.clamps ∧ (t.capture.mark .channel i).clamped = old.clamped ∧ dropsOne t true ∧
          (Beat.lane b 1 = true → committing t) ∧ (Beat.lane b 1 = false → neither t)))

/-- R9, R10, R11, R20, R21: a held commit is judged on the record as it reads back. With Enable 0 it is applied as disabled,
without validation; with Enable 1 it is applied when every check passes, APPLIED or CLAMPED, and refused with the code of
the first check that fails, which changes neither the applied record nor the maps and goes to no unit. The record that the
bytes read back spell is written out by Tables 1.2 to 1.8, the claims of a record in the ownership maps by Table 1.10, and the
units that take each table's commits by R21. -/
def Obligations.CommitsJudged : Prop :=
  (∀ bs : List Byte,
    let b (i : Nat) : Nat := (bs.getD i 0).toNat
    let w (i : Nat) : Nat := b i + 256 * b (i + 1)
    let bit0 (i : Nat) : Bool := (bs.getD i 0).getLsbD 0
    recordOf .zone bs = .zone
      { co1 := w 0, co2 := w 2, co3 := w 4, coPurge := w 6, no21 := w 8, no22 := w 10, no23 := w 12, coMargin := b 14,
        no2Margin := b 15, holdDown := b 16, floor := b 17, ceiling := b 18, trafficHold := b 19,
        heads := [(b 20, b 21), (b 22, b 23), (b 24, b 25), (b 26, b 27)], closed := bit0 28, enabled := bit0 29 } ∧
    recordOf .group bs = .group
      { zoneSet := BitVec.ofNat 16 (w 0), pattern := [(b 2, b 3), (b 4, b 5), (b 6, b 7), (b 8, b 9), (b 10, b 11)],
        duty := [b 12, b 13, b 14, b 15, b 16, b 17, b 18, b 19], action := b 20, enabled := bit0 21 } ∧
    recordOf .fan bs = .fan { loop := b 0, node := b 1, terminal := b 2, isolate := bit0 3, enabled := bit0 4 } ∧
    recordOf .bay bs = .bay
      { loop := b 0, node := b 1, input := b 2, zone := b 3, cls := b 4, channel := b 5, closed := bit0 6, enabled := bit0 7 } ∧
    recordOf .channel bs = .channel
      { loop := b 0, node := b 1, output := b 2, zone := b 3, idle := b 4, presence := b 5, route := b 6, hold := w 7,
        enabled := bit0 9 } ∧
    recordOf .gate bs = .gate
      { pref := [b 0, b 1, b 2, b 3, b 4, b 5], margin := b 6, zone := b 7, expiry := w 8, exitQueue := w 10,
        routes := [[b 12, b 13, b 14, b 15], [b 16, b 17, b 18, b 19], [b 20, b 21, b 22, b 23], [b 24, b 25, b 26, b 27],
          [b 28, b 29, b 30, b 31], [b 32, b 33, b 34, b 35]], enabled := bit0 36 } ∧
    let line (o : Nat) : SignLine := { mask := BitVec.ofNat 16 (w o), arrow := b (o + 2), cls := b (o + 3) }
    recordOf .sign bs = .sign
      { loop := b 0, node := b 1, mode := b 2, lines := [line 3, line 7, line 11, line 15], enabled := bit0 19 }) ∧
  (tables = [.zone, .group, .fan, .bay, .channel, .gate, .sign] ∧ tables.map commitOffset = [29, 21, 4, 7, 9, 36, 19] ∧
    tables.map takers = [[.air, .guidance, .terminal], [.fan, .terminal], [.fan, .terminal], [.occupancy, .terminal],
      [.lighting, .terminal], [.guidance, .terminal], [.guidance, .terminal]]) ∧
  (∀ (m : Maps) (v : Option Nat),
    let entry (x : Tab (Option Nat)) (k : Nat) : Option Nat := Tab.get none x k
    let node (l n : Nat) : Nat := 64 * l + n
    (∀ r : AnyRec, r.enabled = false → m.claim r v = m) ∧ (∀ r, m.claim (.zone r) v = m) ∧ (∀ r, m.claim (.gate r) v = m) ∧
    (∀ r : BayRec, r.enabled = true → { m.claim (.bay r) v with input := m.input } = m ∧
      ∀ k, entry (m.claim (.bay r) v).input k = if k = 16 * node r.loop r.node + r.input then v else entry m.input k) ∧
    (∀ r : ChannelRec, r.enabled = true → { m.claim (.channel r) v with output := m.output } = m ∧
      ∀ k, entry (m.claim (.channel r) v).output k = if k = 4 * node r.loop r.node + r.output then v else entry m.output k) ∧
    (∀ r : FanRec, r.enabled = true → { m.claim (.fan r) v with fanNode := m.fanNode } = m ∧
      ∀ k, entry (m.claim (.fan r) v).fanNode k = if k = node r.loop r.node then v else entry m.fanNode k) ∧
    (∀ r : SignRec, r.enabled = true → { m.claim (.sign r) v with signNode := m.signNode } = m ∧
      ∀ k, entry (m.claim (.sign r) v).signNode k = if k = node r.loop r.node then v else entry m.signNode k) ∧
    (∀ r : GroupRec, r.enabled = true → { m.claim (.group r) v with fanGroup := m.fanGroup } = m ∧
      ∀ f, entry (m.claim (.group r) v).fanGroup f = if f ≠ 255 ∧ f ∈ r.duty then v else entry m.fanGroup f) ∧
    ∀ l n i, m.bayAt l n i = entry m.input (16 * node l n + i) ∧ m.chanAt l n i = entry m.output (4 * node l n + i) ∧
      m.fanAt l n = entry m.fanNode (node l n) ∧ m.signAt l n = entry m.signNode (node l n) ∧
      m.groupOf i = entry m.fanGroup i) ∧
  ∀ (s : State) (k : Table) (i : Nat), s.port.commit = some (k, i) →
    let new := recordOf k (Memory.readAll s.mem (s.recAddr (.record k i)) (commitOffset k + 1))
    let old := s.capture.applied.at_ k i
    let free := s.maps.claim old none
    let applied (t : State) (v : Nat) : Prop :=
      t.capture.applied.at_ k i = new ∧
        (∀ k' j, (k' ≠ k ∨ j ≠ i) → t.capture.applied.at_ k' j = s.capture.applied.at_ k' j) ∧
        t.maps = (if new.enabled then free.claim new (some i) else free) ∧
        t.capture.mark k i = { staged := false, clamped := false, verdict := v } ∧
        .record k i ∈ t.reflect.list ∧ t.port.commit = none ∧ t.mem = s.mem ∧
        t.chan = s.chan ++ (takers k).map (fun u => { src := .capture, dst := u, body := .commit i old new })
    (new.enabled = false → ∃ t, exec .commitReadBackDone s = .next t ∧ applied t 1) ∧
    (new.enabled = true → checkRecord s free i new = none →
      ∃ t, exec .commitReadBackDone s = .next t ∧ applied t (if (s.capture.mark k i).clamped then 3 else 0)) ∧
    ∀ v, new.enabled = true → checkRecord s free i new = some v →
      ∃ t, exec .commitReadBackDone s = .next t ∧ t.capture.applied = s.capture.applied ∧
        t.maps = s.maps ∧ t.capture.mark k i = { staged := false, clamped := false, verdict := v } ∧
        t.attends .verdictReject ∧ .record k i ∈ t.reflect.list ∧ t.port.commit = none ∧ t.mem = s.mem ∧ t.chan = s.chan

/-- R13 to R19 in the class order of R10: a record's range, order, reference and duplicate checks, and the code of the first
class that fails (Table 1.9). -/
def Obligations.RecordChecks : Prop :=
  ∀ (s : State) (m : Maps) (i : Nat),
    let judged (x : AnyRec) (range order ref dup : Prop) : Prop :=
      (checkRecord s m i x = none ↔ range ∧ order ∧ ref ∧ dup) ∧ (checkRecord s m i x = some 4 ↔ ¬range) ∧
        (checkRecord s m i x = some 5 ↔ range ∧ ¬order) ∧ (checkRecord s m i x = some 6 ↔ range ∧ order ∧ ¬ref) ∧
        (checkRecord s m i x = some 7 ↔ range ∧ order ∧ ref ∧ ¬dup)
    let place (l n : Nat) : Prop := l ≤ 3 ∧ 1 ≤ n ∧ n ≤ 32
    let named (x count : Nat) : Prop := x = 255 ∨ x < count
    let free (claimant : Option Nat) : Prop := claimant = none ∨ claimant = some i
    let p := s.cfg.params
    (∀ r : ZoneRec, judged (.zone r)
      (r.co1 ≤ p.coMax ∧ r.co2 ≤ p.coMax ∧ r.co3 ≤ p.coMax ∧ r.coPurge ≤ p.coMax ∧ r.no21 ≤ p.no2Max ∧ r.no22 ≤ p.no2Max ∧
        r.no23 ≤ p.no2Max ∧ r.floor ≤ 4 ∧ r.ceiling ≤ 3 ∧ ∀ h ∈ r.heads, h.2 = 0 ∨ place h.1 h.2)
      (r.co1 ≤ r.co2 ∧ r.co2 ≤ r.co3 ∧ r.co3 ≤ r.coPurge ∧ r.no21 ≤ r.no22 ∧ r.no22 ≤ r.no23 ∧ r.coMargin < r.co1 ∧
        r.no2Margin < r.no21)
      (∀ h ∈ r.heads, h.2 = 0 ∨ s.kindOf h.1 h.2 = .gas) True) ∧
    (∀ r : GroupRec, judged (.group r)
      ((∀ q ∈ r.pattern, q.1 ≤ 8 ∧ q.2 ≤ 100) ∧ r.action ≤ 2) True
      ((∀ z, z < 16 → r.zoneSet.getLsbD z = true → z < s.count .zone) ∧ ∀ f ∈ r.duty, named f (s.count .fan))
      ((r.duty.filter (fun f => decide (f ≠ 255))).Nodup ∧ ∀ f ∈ r.duty, f ≠ 255 → free (m.groupOf f))) ∧
    (∀ r : FanRec, judged (.fan r) (place r.loop r.node) True
      (s.kindOf r.loop r.node = .fan ∧ (r.terminal ≤ 15 ∨ r.terminal = 255)) (free (m.fanAt r.loop r.node))) ∧
    (∀ r : BayRec, judged (.bay r) (place r.loop r.node ∧ r.input ≤ 15 ∧ r.cls ≤ 2) True
      (s.kindOf r.loop r.node = .bay ∧ r.zone < s.count .zone ∧ named r.channel (s.count .channel))
      (free (m.bayAt r.loop r.node r.input))) ∧
    (∀ r : ChannelRec, judged (.channel r)
      (p.minLight ≤ r.idle ∧ r.idle ≤ 100 ∧ r.presence ≤ 100 ∧ r.route ≤ 100 ∧ 10 ≤ r.hold ∧ r.hold ≤ 3600 ∧ r.output ≤ 3 ∧
        place r.loop r.node) True
      (s.kindOf r.loop r.node = .light ∧ r.zone < s.count .zone) (free (m.chanAt r.loop r.node r.output))) ∧
    (∀ r : GateRec, judged (.gate r)
      (r.margin ≤ 50 ∧ 30 ≤ r.expiry ∧ r.expiry ≤ 1800 ∧ 5 ≤ r.exitQueue ∧ r.exitQueue ≤ 600) True
      ((∀ z ∈ r.pref, named z (s.count .zone)) ∧ r.zone < s.count .zone ∧
        ∀ js ∈ r.routes, ∀ ch ∈ js, named ch (s.count .channel)) True) ∧
    ∀ r : SignRec, judged (.sign r)
      (place r.loop r.node ∧ r.mode ≤ 2 ∧ ∀ x ∈ r.lines, x.arrow ≤ 5 ∧ x.cls ≤ 2) True
      (s.kindOf r.loop r.node = .sign ∧ ∀ x ∈ r.lines, ∀ z, z < 16 → x.mask.getLsbD z = true → z < s.count .zone)
      (free (m.signAt r.loop r.node))

/-- R157, R148, R3: a RING write beat in RUN reaches memory on its host-owned lanes alone, counts once in Lane Drops when it
loses any, and one that writes a lane of Producer causes a fetch attempt. That a beat which enables no lane and discards a
held low byte of Presence Hold is counted is the model's choice (log 47). The first clause writes out the part-owned bytes. -/
def Obligations.RingLanesFiltered : Prop :=
  (∀ off, (ringPartOwned true off = true ↔ 2 ≤ off) ∧
    (off < 48 → (ringPartOwned false off = true ↔ off = 6 ∨ off = 7 ∨ (24 ≤ off ∧ off ≤ 47)))) ∧
  ∀ (s : State) (b : Beat) (header : Bool) (off : Nat), s.mode = .run → b.write = true → s.grantable →
    (if header then s.beatClass b = .header off else ∃ i, s.beatClass b = .slot i off) →
    let kept (j : Nat) : Prop := Beat.lane b j = true ∧ ringPartOwned header (off + j) = false
    let lost : Prop :=
      (∃ j, j < 4 ∧ Beat.lane b j = true ∧ ringPartOwned header (off + j) = true) ∨ s.capture.held.isSome = true
    ∃ t, exec (.ringWriteBeat b) s = .next t ∧
      (∀ j, j < 4 → kept j → Memory.read t.mem (Beat.word b + j) = byteOf b.data j) ∧
      (∀ x, (∀ j, j < 4 → kept j → x ≠ Beat.word b + j) → Memory.read t.mem x = Memory.read s.mem x) ∧
      (lost → t.live.laneDrops = satInc s.live.laneDrops 1) ∧ (¬lost → t.live.laneDrops = s.live.laneDrops) ∧
      (header = true → off = 0 → (∃ j, j < 4 ∧ kept j) → t.ring.causeProducer = true) ∧
      (¬(header = true ∧ off = 0) → t.ring = s.ring)

/-- R164: a host read of a listed record finds its part-owned bytes as they stand at the read's arrival, and the record
leaves the list; a record whose reflect writes have begun is finished first, and promoted if it has joined again; a read of
a record that is neither passes to memory. What the part-owned bytes of each record are, ReflectWritesHead says. -/
def Obligations.HostReadPromotes : Prop :=
  ∀ (s : State) (b : Beat) (r : RecName), s.mode = .run → b.write = false → (s.beatClass b).record = some r →
    s.open_ → s.port.counter < 16 →
    let a := s.recAddr r
    let promoted (t : State) : Prop :=
      t.reflect.list = s.reflect.list.filter (fun q => decide (q ≠ r)) ∧
        ∀ p ∈ s.partBytes r, Memory.read t.mem (a + p.1) = p.2
    let reads (t : State) : Prop := t.port.readData = Memory.readWord t.mem (Beat.word b)
    (s.behind r = false → ∃ t, exec (.hostTableRead b) s = .next t ∧ t.mem = s.mem ∧ t.reflect = s.reflect ∧ reads t) ∧
    (r ∈ s.reflect.list → (∀ q bs, s.reflect.current = some (q, bs) → q ≠ r) →
      ∃ t, exec (.hostTableRead b) s = .next t ∧ promoted t ∧ t.reflect.current = s.reflect.current ∧
        (∀ x, (∀ p ∈ s.partBytes r, x ≠ a + p.1) → Memory.read t.mem x = Memory.read s.mem x) ∧ reads t) ∧
    ∀ bs, s.reflect.current = some (r, bs) → (bs.flatten.map (fun p => p.1)).Nodup →
      ∃ t, exec (.hostTableRead b) s = .next t ∧ t.reflect.current = none ∧ reads t ∧
        (r ∉ s.reflect.list → t.reflect.list = s.reflect.list ∧
          (∀ p ∈ bs.flatten, Memory.read t.mem (a + p.1) = p.2) ∧
          ∀ x, (∀ p ∈ bs.flatten, x ≠ a + p.1) → Memory.read t.mem x = Memory.read s.mem x) ∧
        (r ∈ s.reflect.list → promoted t)

/-- R163, R165: the Reflect Engine takes the record at the head, copies its part-owned fields as they stand and writes the
copy burst by burst, each a part grant; the bursts together are the copy, a ZONE record's are of 4, 2 and 1 beats and a BAY
record's is of 2. A host beat that stands on the hold line follows the grant, whatever its access (State.standing, Safety.lean;
log 10). A commit that is held does not keep the engine from writing (R161, log 11). The part-owned fields as they stand are written
out byte by byte: their places, and the value of each (Tables 1.2 to 1.8, 9.4 and 9.5). -/
def Obligations.ReflectWritesHead : Prop :=
  (∀ (s : State) (r : RecName) (rs : List RecName) (bs : List (Nat × Byte)) (rest : List (List (Nat × Byte))),
    s.reflectDue = true →
    ((s.reflect.current = none ∧ s.reflect.list = r :: rs ∧ burstsOf (s.partBytes r) = bs :: rest) ∨
      (s.reflect.current = some (r, bs :: rest) ∧ s.reflect.list = rs)) →
    let m : State :=
      { s with mem := Memory.writeAll s.mem (bs.map (fun p => (s.recAddr r + p.1, p.2)))
               reflect := { list := rs, current := if rest = [] then none else some (r, rest) }
               port := { s.port with counter := 0, wait := none } }
    (s.port.wait = none → exec .reflectWrite s = .next m) ∧
    ∀ w, s.port.wait = some w → ∃ t, exec .reflectWrite s = .next t ∧ m.standing w.beat w.access t) ∧
  (∀ s : State, s.reflectDue = true ↔ s.mode = .run ∧ s.port.grant = false ∧ (s.port.wait = none ∨ 16 ≤ s.port.counter) ∧
    ¬(0 < s.ringCount ∧ s.ring.reads = true) ∧ (s.reflect.current ≠ none ∨ s.reflect.list ≠ [])) ∧
  (∀ (s : State) (r : RecName), (burstsOf (s.partBytes r)).flatten = s.partBytes r) ∧
  (∀ (m : List Host.Cell) (a : Nat) (ps : List (Nat × Byte)), (ps.map (fun p => p.1)).Nodup →
    let m' := Memory.writeAll m (ps.map (fun p => (a + p.1, p.2)))
    (∀ p ∈ ps, Memory.read m' (a + p.1) = p.2) ∧ ∀ x, (∀ p ∈ ps, x ≠ a + p.1) → Memory.read m' x = Memory.read m x) ∧
  (∀ (s : State) (i : Nat),
    (burstsOf (s.partBytes (.record .zone i))).map (fun bs => (wordsOf bs).length) = [4, 2, 1] ∧
      (burstsOf (s.partBytes (.record .bay i))).map (fun bs => (wordsOf bs).length) = [2]) ∧
  ∀ (s : State) (i : Nat),
    let at_ (r : RecName) (o v : Nat) : Prop := (o, BitVec.ofNat 8 v) ∈ s.partBytes r
    let field (r : RecName) (o n v : Nat) : Prop := ∀ j, j < n → at_ r (o + j) (v / 256 ^ j)
    let places (r : RecName) (os : List Nat) : Prop := (s.partBytes r).map (fun p => p.1) = os
    let span (o n : Nat) : List Nat := (List.range n).map (fun j => o + j)
    let bit (b : Bool) (v : Nat) : Nat := if b then v else 0
    let verdict (t : Table) : Nat := (s.capture.mark t i).verdict
    (let r := RecName.record .zone i
      let a := s.air.zone i
      let o := s.occ.zone i
      let g := s.guid.zone i
      places r (span 32 21 ++ span 56 4) ∧ at_ r 32 a.stage ∧ at_ r 33 a.gasDemand ∧ at_ r 34 a.trafficDemand ∧
        at_ r 35 (bit a.gasUnknown 1 + bit a.noHeads 2) ∧ field r 36 2 a.co ∧ field r 38 2 a.no2 ∧ field r 40 2 o.general ∧
        field r 42 2 o.accessible ∧ field r 44 2 o.charging ∧ field r 46 2 g.holds ∧ field r 48 2 o.unknown ∧
        at_ r 50 (match g.gstate with | .opened => 0 | .full => 1 | .closed => 2) ∧
        at_ r 51 (bit g.reasons.host 1 + bit g.reasons.air 2 + bit g.reasons.override 4 + bit g.reasons.fault 8 +
          bit g.reasons.disabled 16) ∧ at_ r 52 (verdict .zone) ∧ field r 56 4 a.since.toNat) ∧
    (let r := RecName.record .group i
      let x := s.fan.group i
      places r (span 32 5) ∧ at_ r 32 x.stage ∧ at_ r 33 x.running ∧ at_ r 34 x.lead ∧ at_ r 35 (bit x.short 1) ∧
        at_ r 36 (verdict .group)) ∧
    (let r := RecName.record .fan i
      let x := s.fan.fan i
      places r (span 8 11) ∧
        at_ r 8 (match x.state with
          | .stopped => 0 | .queued => 1 | .starting => 2 | .running => 3 | .stopping => 4 | .fault => 5
          | .isolated => 6) ∧ at_ r 9 (verdict .fan) ∧ at_ r 10 x.command ∧ at_ r 11 x.reported ∧
        field r 12 4 x.runSeconds.toNat ∧ field r 16 2 x.starts.toNat ∧
        at_ r 18 (match x.cause with
          | .none => 0 | .startTimeout => 1 | .stopTimeout => 2 | .driveFault => 3 | .nodeFailed => 4
          | .runLost => 5)) ∧
    (let r := RecName.record .bay i
      let x := s.occ.bay i
      places r (span 8 8) ∧
        at_ r 8 (match x.state with | .disabled => 0 | .closed => 1 | .unknown => 2 | .free => 3 | .occupied => 4) ∧
        at_ r 9 (verdict .bay) ∧ field r 10 4 x.lastChange.toNat ∧ field r 14 2 x.arrivals.toNat) ∧
    (let r := RecName.record .channel i
      let x := s.light.chan i
      places r (span 10 4) ∧ at_ r 10 x.level ∧ at_ r 11 (match x.status with | .unassigned => 0 | .ok => 1 | .unknown => 2) ∧
        at_ r 12 x.routes ∧ at_ r 13 (verdict .channel)) ∧
    (let r := RecName.record .gate i
      let x := s.guid.gate i
      places r (span 40 9) ∧ at_ r 40 x.lastTarget ∧ at_ r 41 (bit x.full 1 + bit x.queue 2) ∧ field r 42 2 x.entries.toNat ∧
        field r 44 2 x.unguided.toNat ∧ field r 46 2 x.exits.toNat ∧ at_ r 48 (verdict .gate)) ∧
    (let r := RecName.record .sign i
      let x := s.guid.sign i
      places r (span 24 22) ∧
        (∀ l, l < 4 → let y := x.shown.getD l Shown.blank
          field r (24 + 4 * l) 2 y.value ∧ at_ r (26 + 4 * l) y.arrow ∧ at_ r (27 + 4 * l) y.text) ∧
        at_ r 40 (match x.status with | .ok => 0 | .pending => 1 | .failed => 2) ∧ at_ r 41 (verdict .sign) ∧
        field r 42 4 x.lastShow.toNat) ∧
    (places .header (span 2 6) ∧ field .header 2 2 s.ring.fetch.toNat ∧ field .header 4 2 s.ring.completed.toNat ∧
      at_ .header 6 (bit s.ring.overrun 1) ∧ at_ .header 7 s.ring.index) ∧
    let r := RecName.slot i
    let x := s.ring.slot i
    places r (span 24 5 ++ span 32 16) ∧ at_ r 24 x.status ∧ at_ r 25 x.detail ∧ at_ r 26 x.replyLen ∧ at_ r 27 x.notDone ∧
      at_ r 28 x.lastNode ∧ ∀ j, j < 16 → (32 + j, x.reply.getD j 0) ∈ s.partBytes r

/-- R156, R173: a beat is the Live Window's when its address lies in it, or when it follows one of its burst that did: the
burst stays within the block of its snapshot, also where its own address would lie past FFFFFFh. The first beat in a block
takes a snapshot of the block as it stands, before any effect of its own, and a read returns its word of that; the beats that
follow read the snapshot, by their place in the block, and none changes it. A write beat changes the writable fields on its
enabled lanes in every mode: Plain Output (R124), and at 020h Attention Enable, bits 0 to 11 (log 15), and Attention Pending,
where it clears each bit written 1 but HALTED (R175); one on an address that holds none changes no register of the window. At
040h it stores its enabled lanes in the command word, and one that enables lane 0 does there what the command's own row does
(R174; log 15 on the lanes and on a beat inside a longer burst). A held low byte of Presence Hold is lost first, as
at any beat that does not complete it (R7). -/
def Obligations.LiveBeats : Prop :=
  ∀ (s : State) (b : Beat),
    (s.inLive b = true ↔ 0xFFF000 ≤ Beat.word b ∨ (b.index ≠ 0 ∧ s.live.snapshot.isSome = true)) ∧
    (s.inLive b = true → s.beatClass b = .live ∧ exec (.plainBeat b) s = .next s ∧ exec (.tableWriteBeat b) s = .next s ∧
      exec (.ringWriteBeat b) s = .next s ∧ exec (.hostTableRead b) s = .next s) ∧
    (s.inLive b = true → s.open_ →
    let u := s.dropHeld
    let plain (t : State) : Prop := ∀ k, k < 16 → t.live.plainOut.getLsbD k =
      (if Beat.lane b (2 + k / 8) then b.data.getLsbD (16 + k) else s.live.plainOut.getLsbD k)
    let fresh : Prop := b.index = 0 ∨ s.live.snapshot = none
    let block : Nat := (Beat.word b - 0xFFF000) / 32
    let taken (t : State) : Prop := (¬fresh → t.live.snapshot = s.live.snapshot) ∧
      (fresh → t.live.snapshot = some (block, (List.range 32).map (fun j => u.liveByte (32 * block + j))))
    let registers (v : Live) : Live := { v with snapshot := none }
    (s.capture.held = none → u = s) ∧
    (b.write = false → fresh → ∃ t, exec (.liveSnapshot b) s = .next t ∧ taken t ∧
      t.port.readData = wordOf (fun j => u.liveByte (Beat.word b - 0xFFF000 + j)) ∧
      { t with port := u.port, live := u.live } = u ∧ registers t.live = registers u.live) ∧
    (∀ k bs, b.write = false → b.index ≠ 0 → s.live.snapshot = some (k, bs) → ∃ t, exec (.liveSnapshot b) s = .next t ∧
      t.port.readData = wordOf (fun j => bs.getD (Beat.word b % 32 + j) 0) ∧ { t with port := u.port } = u) ∧
    (b.write = true → ∀ o, (fresh → o = Beat.word b - 0xFFF000) →
      (∀ k bs, b.index ≠ 0 → s.live.snapshot = some (k, bs) → o = 32 * k + Beat.word b % 32) →
      let windowAlone (t : State) : Prop := taken t ∧ { t with port := u.port, live := u.live } = u
      (o = 0x84 → ∃ t, exec (.liveWrite b) s = .next t ∧ plain t ∧ windowAlone t ∧
        registers { t.live with plainOut := 0 } = registers { u.live with plainOut := 0 }) ∧
      (o = 0x84 → (Beat.lane b 2 || Beat.lane b 3) = true →
        ∃ t, exec (.plainOutputWrite b) s = .next t ∧ plain t ∧ windowAlone t ∧
          registers { t.live with plainOut := 0 } = registers { u.live with plainOut := 0 }) ∧
      (o = 0x20 → ∃ t, exec (.liveWrite b) s = .next t ∧ windowAlone t ∧
        registers { t.live with pendingAtt := 0, enableAtt := 0 } = registers { u.live with pendingAtt := 0, enableAtt := 0 } ∧
        (∀ k, k < 12 → t.live.enableAtt.getLsbD k =
          (if Beat.lane b (2 + k / 8) then b.data.getLsbD (16 + k) else s.live.enableAtt.getLsbD k)) ∧
        ∀ k, k < 16 → t.live.pendingAtt.getLsbD k =
          (s.live.pendingAtt.getLsbD k && (decide (k = 11) || !(Beat.lane b (k / 8) && b.data.getLsbD k)))) ∧
      (o = 0x40 → Beat.lane b 0 = false → ∃ t, exec (.liveWrite b) s = .next t ∧ windowAlone t ∧
        registers { t.live with cmdWord := 0 } = registers { u.live with cmdWord := 0 } ∧
        ∀ j, j < 4 → byteOf t.live.cmdWord j = (if Beat.lane b j then byteOf b.data j else byteOf s.live.cmdWord j)) ∧
      (o = 0x40 → Beat.lane b 0 = true →
        let code := byteOf b.data 0
        let arg (j : Nat) : Option Byte := if Beat.lane b j then some (byteOf b.data j) else none
        let a : CmdArgs := { arg1 := arg 1, arg2 := arg 2, arg3 := arg 3 }
        ∀ c, ((c, code) ∈ [(Instr.lockGranule a, 1#8), (.unlockGranule a, 2#8), (.lockTable a, 3#8), (.unlockTable a, 4#8),
            (.loopReset a, 5#8), (.nodeIsolate a, 6#8), (.nodeRestore a, 7#8), (.fanClear a, 8#8), (.holdsClear a, 9#8),
            (.countersClear a, 10#8), (.restart a, 11#8)] ∨ (c = .unknownCommand code a ∧ knownCode code = false)) →
          ∃ t v, exec (.liveWrite b) s = .next t ∧ exec c s = .next v ∧
            { t with port := v.port, live := registers t.live } = { v with live := registers v.live } ∧
            (code ≠ 11#8 → taken t ∧ ∀ j, j < 4 →
              byteOf t.live.cmdWord j = (if Beat.lane b j then byteOf b.data j else byteOf s.live.cmdWord j))) ∧
      (o ≠ 0x20 → o ≠ 0x40 → o ≠ 0x84 →
        ∃ t, exec (.liveWrite b) s = .next t ∧ windowAlone t ∧ registers t.live = registers u.live)))

/-- Table 11.3 with R55, R115, R117, R128, R158: what the Live Window shows, byte by byte or bit by bit. The first clause writes out
the codes of node states, ends, failure causes and terminal functions (Tables 8.4, 8.5 and 7.1). -/
def Obligations.LiveWindowShows : Prop :=
  ([NodeState.absent, .joining, .ready, .waiting, .failed, .isolated].map nodeCode = [0, 1, 2, 3, 4, 5] ∧
    [Reach.a, .b, .unreached].map reachCode = [0, 1, 2] ∧
    [FailCause.none, .timeout, .mismatch, .unreached].map causeCode = [0, 1, 2, 3] ∧
    ∀ g f z k i, [Func.gateIn g, .gateOut g, .smoke, .fanFb f, .plainIn, .stageOut z k, .gateFull g, .alarmOut,
      .plainOut i].map funcCode = [1, 2, 3, 4, 5, 6, 7, 8, 9]) ∧
  ∀ s : State,
    let at_ (o : Nat) : Byte := s.liveByte o
    let field (o n v : Nat) : Prop := ∀ j, j < n → at_ (o + j) = BitVec.ofNat 8 (v / 256 ^ j)
    (at_ 0 = (match s.mode with | .loading => 0 | .building => 1 | .run => 2 | .halted => 3) ∧ at_ 1 = s.resetCause ∧
      at_ 2 = s.configFault ∧ at_ 3 = s.imageRevision ∧ field 4 4 s.time.toNat ∧ field 0x20 2 s.live.pendingAtt.toNat ∧
      field 0x22 2 s.live.enableAtt.toNat ∧ field 0x40 4 s.live.cmdWord.toNat ∧ at_ 0x44 = s.live.result ∧
      at_ 0x45 = s.live.resultCmd ∧ field 0x60 4 s.live.dropped.toNat ∧ field 0x64 4 s.live.laneDrops.toNat ∧
      field 0x68 4 s.live.clamps.toNat ∧ field 0x6C 4 s.live.lastDropped.toNat ∧
      at_ 0x80 = (match s.air.override with | .normal => 0 | .active => 1 | .clearing => 2)) ∧
    (∀ k, k < 16 → (at_ (0x82 + k / 8)).getLsbD (k % 8) = s.terminalLevel k ∧
      (at_ (0x84 + k / 8)).getLsbD (k % 8) = s.terminalActive k ∧
      (at_ (0x86 + k / 8)).getLsbD (k % 8) = s.live.plainOut.getLsbD k ∧
      ((s.term.term k).func = none → at_ (0xA0 + k) = 0) ∧
      ∀ f p, (s.term.term k).func = some (f, p) → at_ (0xA0 + k) = BitVec.ofNat 8 (funcCode f + 16 * p)) ∧
    (∀ id, id < 8 →
      field (0xC0 + 4 * id) 2 (if s.windowsInEffect then [16, 12, 48, 2048, 64, 8, 32, 64].getD id 0 else 0) ∧
      field (0xC2 + 4 * id) 2 (if s.windowsInEffect then s.cfg.counts.getD id 0 else 0)) ∧
    (∀ l, l < 4 → let L := s.loop l
      at_ (0x100 + 32 * l) =
        (match L.state with | .idle => 0 | .closed => 1 | .probing => 2 | .broken => 3 | .dead => 4) ∧
      at_ (0x101 + 32 * l) = BitVec.ofNat 8 (s.ring.queue l).length ∧ field (0x104 + 32 * l) 4 L.framesSent.toNat ∧
      field (0x108 + 32 * l) 4 L.timeouts.toNat ∧ field (0x10C + 32 * l) 4 L.checkErrors.toNat ∧
      field (0x110 + 32 * l) 4 L.stale.toNat ∧ field (0x114 + 32 * l) 4 L.misses.toNat ∧
      ∀ n ∈ addresses, at_ (0x600 + 32 * l + (n - 1)) =
        BitVec.ofNat 8 (nodeCode (L.node n).state + 16 * reachCode (L.node n).reach + 64 * causeCode (L.node n).cause)) ∧
    (∀ g, g < 256 → (at_ (0x200 + g / 8)).getLsbD (g % 8) = s.guard.locks.getLsbD g) ∧
    (∀ k, k < 64 → (s.guid.holds.length ≤ k → ∀ j, j < 8 → at_ (0x400 + 8 * k + j) = 0) ∧
      ∀ h, s.guid.holds[k]? = some h → at_ (0x400 + 8 * k) = h.id ∧ at_ (0x401 + 8 * k) = BitVec.ofNat 8 h.gate ∧
        at_ (0x402 + 8 * k) = BitVec.ofNat 8 h.zone ∧ at_ (0x403 + 8 * k) = BitVec.ofNat 8 h.position ∧
        field (0x404 + 8 * k) 2 (h.expiry - s.secs) ∧ field (0x406 + 8 * k) 2 h.created.toNat) ∧
    ∀ o, o = 0x81 ∨ (∃ l, l < 4 ∧ ((0x102 + 32 * l ≤ o ∧ o < 0x104 + 32 * l) ∨ (0x118 + 32 * l ≤ o ∧ o < 0x120 + 32 * l))) ∨
      (8 ≤ o ∧ o < 0x20) ∨ (0x24 ≤ o ∧ o < 0x40) ∨ (0x46 ≤ o ∧ o < 0x60) ∨ (0x70 ≤ o ∧ o < 0x80) ∨
      (0x88 ≤ o ∧ o < 0xA0) ∨ (0xB0 ≤ o ∧ o < 0xC0) ∨ (0xE0 ≤ o ∧ o < 0x100) ∨ (0x180 ≤ o ∧ o < 0x200) ∨
      (0x220 ≤ o ∧ o < 0x400) ∨ 0x680 ≤ o → at_ o = 0

/-- R175: a cause sets its bit and no other; a write to 020h clears each bit written 1 and leaves the others and HALTED; the
line follows Pending and Enable, with HALTED whatever its Enable; the entry to HALTED sets HALTED; every reset clears both. The
first clause writes out the bits of Table 11.4. -/
def Obligations.AttentionRule : Prop :=
  ([Attn.stage, .gasUnknown, .nodeFailed, .loopBroken, .override, .fanFault, .groupShort, .ringDone, .guardDrop,
    .verdictReject, .unguided, .halted].map attnBit = [0, 1, 2, 3, 4, 5, 6, 7, 8, 9, 10, 11]) ∧
  (∀ (v : Live) (a : Attn) (k : Nat), k < 16 →
    (v.attend a).pendingAtt.getLsbD k = (v.pendingAtt.getLsbD k || decide (k = attnBit a))) ∧
  (∀ (s : State) (b : Beat), b.write = true → b.index = 0 → Beat.word b = 0xFFF020 → s.open_ →
    (Beat.lane b 0 || Beat.lane b 1) = true →
    ∃ t, exec (.attentionPendingWrite b) s = .next t ∧ ∀ k, k < 16 → t.live.pendingAtt.getLsbD k =
      (s.live.pendingAtt.getLsbD k && (decide (k = attnBit .halted) || !(Beat.lane b (k / 8) && b.data.getLsbD k)))) ∧
  (∀ v : Live, v.attentionLine = true ↔
    v.pendingAtt.getLsbD (attnBit .halted) = true ∨
      ∃ k, k < 16 ∧ v.pendingAtt.getLsbD k = true ∧ v.enableAtt.getLsbD k = true) ∧
  (∀ (s : State) (st : List Byte) (code : Byte), s.mode = .loading → imageFault st = some code →
    ∃ t, exec (.configurationRead st) s = .next t ∧ t.mode = .halted ∧ t.attends .halted) ∧
  (∀ s : State, ∃ t, exec .powerOnReset s = .next t ∧ t.live.pendingAtt = 0 ∧ t.live.enableAtt = 0) ∧
  (∀ s : State, ∃ t, exec .resetPin s = .next t ∧ t.live.pendingAtt = 0 ∧ t.live.enableAtt = 0) ∧
  ∀ (s : State) (a : CmdArgs), s.open_ →
    ∃ t, exec (.restart a) s = .next t ∧ t.live.pendingAtt = 0 ∧ t.live.enableAtt = 0

/-! ### Device commands -/

/-- R158, R160: the four lock commands in RUN, bit by bit, with their Results; the hard-lock flags stay. The granules of a table and
the table of a granule are written out. -/
def Obligations.LockCommands : Prop :=
  ∀ (s : State) (a : CmdArgs), s.mode = .run → s.open_ →
    let g := argVal a.arg1
    let done (t : State) (code : Byte) (r : Byte) : Prop :=
      t.live.result = r ∧ t.live.resultCmd = code ∧ { t.guard with locks := 0 } = { s.guard with locks := 0 }
    let first (k : Table) : Nat :=
      ((List.range (tableId k)).map (fun j => if (s.window j).present then (s.window j).len else 0)).sum
    let inTable (k : Table) (x : Nat) : Prop := first k ≤ x ∧ x < first k + (s.window (tableId k)).len
    (∀ k, s.guardTable g = some k ↔ (s.window (tableId k)).present = true ∧ inTable k g) ∧
    (∀ k, s.guard.hard k = true ↔ (k = .zone ∧ s.guard.hardZone = true) ∨ (k = .group ∧ s.guard.hardGroup = true) ∨
      (k = .fan ∧ s.guard.hardFan = true)) ∧
    (g < s.cfg.guarded →
      (∃ t, exec (.lockGranule a) s = .next t ∧ done t 1 0 ∧
        ∀ x, x < 256 → t.guard.locks.getLsbD x = (s.guard.locks.getLsbD x || decide (x = g))) ∧
      ∃ t, exec (.unlockGranule a) s = .next t ∧
        (t.live.result = 3 ↔ (∃ k, s.guardTable g = some k ∧ s.guard.hard k = true) ∧ s.guard.locks.getLsbD g = true) ∧
        done t 2 (if t.live.result = 3 then 3 else 0) ∧
        ∀ x, x < 256 → t.guard.locks.getLsbD x = (s.guard.locks.getLsbD x && !decide (x = g))) ∧
    (s.cfg.guarded ≤ g →
      (∃ t, exec (.lockGranule a) s = .next t ∧ done t 1 1 ∧ t.guard = s.guard) ∧
      ∃ t, exec (.unlockGranule a) s = .next t ∧ done t 2 1 ∧ t.guard = s.guard) ∧
    (∀ k, tables[g]? = some k → (s.window g).present = true →
      (∃ t, exec (.lockTable a) s = .next t ∧ done t 3 0 ∧
        ∀ x, x < 256 → (t.guard.locks.getLsbD x = true ↔ s.guard.locks.getLsbD x = true ∨ inTable k x)) ∧
      ∃ t, exec (.unlockTable a) s = .next t ∧
        (t.live.result = 3 ↔ s.guard.hard k = true ∧ ∃ x < 256, inTable k x ∧ s.guard.locks.getLsbD x = true) ∧
        done t 4 (if t.live.result = 3 then 3 else 0) ∧
        ∀ x, x < 256 → (t.guard.locks.getLsbD x = true ↔ s.guard.locks.getLsbD x = true ∧ ¬inTable k x)) ∧
    ((6 < g ∨ (s.window g).present = false) →
      (∃ t, exec (.lockTable a) s = .next t ∧ done t 3 1 ∧ t.guard = s.guard) ∧
      ∃ t, exec (.unlockTable a) s = .next t ∧ done t 4 1 ∧ t.guard = s.guard)

/-- R174, R111, R54, R142, R166: outside RUN every device command but RESTART gives NOT_RUNNING and changes nothing but the
command word, its Result and what any beat of the Live Window does (a code that Table 11.5 does not list among them: log
42). In RUN: FAN_CLEAR, HOLDS_CLEAR, COUNTERS_CLEAR and an unlisted code. A fan that leaves FAULT for STOPPED may be queued
and started within the same event (R99); that a fan in FAULT is not in the Start Queue is law 6 (FanLawsKept). HOLDS_CLEAR ends
its holds oldest first, each as R50 gives: H falls, the ZONE record is listed and the route counts are lowered; the premise,
that every Guidance State is the one its reasons and counts give, is R45's own (GuidanceLawsKept). -/
def Obligations.CommandsAndClears : Prop :=
  ∀ (s : State) (a : CmdArgs), s.open_ →
    let x := argVal a.arg1
    let u := s.dropHeld
    let windowAlone (t : State) : Prop := { t with port := u.port, live := u.live } = u ∧
      { t.live with cmdWord := 0, result := 0, resultCmd := 0, snapshot := none } =
        { u.live with cmdWord := 0, result := 0, resultCmd := 0, snapshot := none }
    (s.capture.held = none → u = s) ∧ s.capture.kept u.capture ∧
    (s.mode ≠ .run → ∀ (c : Instr) (code : Byte),
      ((c, code) ∈ [(Instr.lockGranule a, 1#8), (.unlockGranule a, 2#8), (.lockTable a, 3#8), (.unlockTable a, 4#8),
          (.loopReset a, 5#8), (.nodeIsolate a, 6#8), (.nodeRestore a, 7#8), (.fanClear a, 8#8), (.holdsClear a, 9#8),
          (.countersClear a, 10#8)] ∨ (c = .unknownCommand code a ∧ knownCode code = false)) →
      ∃ t, exec c s = .next t ∧ t.live.result = 2 ∧ t.live.resultCmd = code ∧ windowAlone t) ∧
    (s.mode = .run →
      ((x < s.count .fan ∧ (s.fan.fan x).state = .fault) → ∃ t, exec (.fanClear a) s = .next t ∧ t.live.result = 0 ∧
        (t.fan.fan x).cause = (s.fan.fan x).cause ∧
        (if (s.fan.fan x).inForce.isolate then s.fan.queueOk = true → (t.fan.fan x).state = .isolated
         else (t.fan.fan x).state = .stopped ∨ (t.fan.fan x).state = .queued ∨ (t.fan.fan x).state = .starting)) ∧
      (¬(x < s.count .fan ∧ (s.fan.fan x).state = .fault) → ∃ t, exec (.fanClear a) s = .next t ∧ t.live.result = 1 ∧
        t.fan = s.fan) ∧
      (x = 255 → ∃ t, exec (.holdsClear a) s = .next t ∧ t.live.result = 0 ∧ t.guid.holds = []) ∧
      (x ≠ 255 → x < s.count .zone → ∃ t, exec (.holdsClear a) s = .next t ∧ t.live.result = 0 ∧
        t.guid.holds = s.guid.holds.filter (fun h => decide (h.zone ≠ x))) ∧
      (x = 255 ∨ x < s.count .zone → s.guid.evaluated →
        let ends (h : Hold) : Bool := decide (x = 255 ∨ h.zone = x)
        ∃ t, exec (.holdsClear a) s = .next t ∧ t.guid.evaluated ∧
          (∀ z, (t.guid.zone z).holds =
            (s.guid.zone z).holds - (s.guid.holds.filter (fun h => ends h && decide (h.zone = z))).length) ∧
          (∀ h ∈ s.guid.holds, ends h = true → .record .zone h.zone ∈ t.reflect.list) ∧
          ∃ ms, t.chan = s.chan ++ ((s.guid.holds.filter ends).flatMap (fun h => h.route)).map
              (fun ch => { src := .guidance, dst := .lighting, body := .routeLowered ch }) ++ ms ∧
            ∀ m ∈ ms, m.dst = .terminal) ∧
      (x ≠ 255 → s.count .zone ≤ x → ∃ t, exec (.holdsClear a) s = .next t ∧ t.live.result = 1 ∧ t.guid = s.guid) ∧
      (∃ t, exec (.countersClear a) s = .next t ∧ t.live.result = 0 ∧ t.live.dropped = 0 ∧ t.live.laneDrops = 0 ∧
        t.live.clamps = 0 ∧ t.live.lastDropped = 0 ∧
        ∀ l, l < 4 → (t.loop l).framesSent = 0 ∧ (t.loop l).timeouts = 0 ∧ (t.loop l).checkErrors = 0 ∧
          (t.loop l).stale = 0 ∧ (t.loop l).misses = 0 ∧ (t.loop l).state = (s.loop l).state ∧
          (t.loop l).nodes = (s.loop l).nodes ∧ (t.loop l).order = (s.loop l).order) ∧
      ∀ code, knownCode code = false → ∃ t, exec (.unknownCommand code a) s = .next t ∧ t.live.result = 1 ∧
        t.live.resultCmd = code ∧ windowAlone t)

/-- R139, R140, R141: LOOP_RESET, NODE_ISOLATE and NODE_RESTORE in RUN, by the loop, the node and the Node State they find.
LOOP_RESET ends the loop's host requests ABORTED with detail 3, takes every node that is neither ABSENT nor ISOLATED to
JOINING with its JOIN mark set, abandons the frames in flight, and leaves the loop IDLE, its start test made at once where both
ends are free (LoopTimersRun says how it is made later). NODE_ISOLATE abandons a frame of the node in flight, its discovery ECHO
too, ends the node's host request ABORTED with detail 2 and sets the mark of an internal one again. The owner of a node that was READY, WAITING or FAILED gets its notice (R129). -/
def Obligations.LoopAndNodeCommands : Prop :=
  ∀ (s : State) (a : CmdArgs), s.mode = .run → s.open_ →
    let l := argVal a.arg1
    let n := argVal a.arg2
    let st := ((s.loop l).node n).state
    let badArg (c : Instr) (code : Byte) : Prop := ∃ t, exec c s = .next t ∧ t.live.result = 1 ∧ t.live.resultCmd = code ∧
      t.loops = s.loops ∧ t.ring = s.ring
    (3 < l → badArg (.loopReset a) 5 ∧ badArg (.nodeIsolate a) 6 ∧ badArg (.nodeRestore a) 7) ∧
    (nodeOk n = false → badArg (.nodeIsolate a) 6 ∧ badArg (.nodeRestore a) 7) ∧
    (l ≤ 3 → ∃ t, exec (.loopReset a) s = .next t ∧ t.live.result = 0 ∧ t.live.resultCmd = 5 ∧
      (t.loop l).state = .idle ∧ (t.loop l).disc = none ∧ (t.loop l).repair = none ∧ t.ring.queue l = [] ∧
      (let L := s.loop l
        let dropped (f : Flight) : Flight := { f with work := .abandoned, reply := false, pass := false }
        let waits : Prop := L.endA ≠ none ∨ L.endB ≠ none ∨ ∀ k, (L.node k).kind = .none
        (L.endA ≠ none ∨ L.endB ≠ none → (t.loop l).endA = L.endA.map dropped ∧ (t.loop l).both = false) ∧
        (t.loop l).endB = L.endB.map dropped ∧
        (¬waits → (t.loop l).both = true ∧ (t.loop l).endA =
          some { frame := testFrame, work := .startTest, timer := none, reply := false, pass := true })) ∧
      (∀ e ∈ s.ring.queue l, (t.ring.slot e.slot).status = 6 ∧ (t.ring.slot e.slot).detail = 3) ∧
      (∀ k, k ≠ l → t.loop k = s.loop k) ∧
      (∀ k ∈ addresses, ∀ u, let st := ((s.loop l).node k).state
        ownerOf ((s.loop l).node k).kind = some u → (st = .ready ∨ st = .waiting ∨ st = .failed) →
          { src := .controller l, dst := u, body := .nodeNotice k st .joining } ∈ t.chan) ∧
      ∀ k ∈ addresses,
        if ((s.loop l).node k).state = .absent ∨ ((s.loop l).node k).state = .isolated then
          ((t.loop l).node k).state = ((s.loop l).node k).state
        else ((t.loop l).node k).state = .joining ∧ ((t.loop l).node k).out = none ∧ ((t.loop l).node k).retry = 0 ∧
          ((t.loop l).node k).busy = none ∧ (k, Mark.join) ∈ (t.loop l).order) ∧
    (l ≤ 3 → nodeOk n = true →
      (st = .absent → badArg (.nodeIsolate a) 6) ∧
      (st = .isolated → ∃ t, exec (.nodeIsolate a) s = .next t ∧ t.live.result = 0 ∧ t.loops = s.loops) ∧
      (st ≠ .absent → st ≠ .isolated → ∃ t, exec (.nodeIsolate a) s = .next t ∧ t.live.result = 0 ∧
        ((t.loop l).node n).state = .isolated ∧ ((t.loop l).node n).retry = 0 ∧ ((t.loop l).node n).out = none ∧
        ((t.loop l).node n).reach = ((s.loop l).node n).reach ∧ (t.loop l).disc = (s.loop l).disc ∧
        (∀ e f, (s.loop l).flight e = some f → (t.loop l).flight e =
          (if (f.work = .request n ∨ f.work = .discovery n) ∧ f.reply = true then
            some { f with work := .abandoned, reply := false } else some f)) ∧
        (∀ m, (n, m) ∈ (s.loop l).order → (n, m) ∈ (t.loop l).order) ∧
        t.chan = s.chan ++ (if st = .joining then [] else ((ownerOf ((s.loop l).node n).kind).map (fun u =>
          { src := .controller l, dst := u, body := .nodeNotice n st .isolated })).toList) ∧
        ∀ r, ((s.loop l).node n).out = some r →
          (∀ m, r.source = .mark m → (n, m) ∈ (t.loop l).order) ∧
          ∀ slot id x, r.source = .host slot id → s.ring.entry l id = some x →
            ((s.ring.queue l).map (fun y => y.id)).Nodup →
            t.ring.entry l id = none ∧ t.ring.causeDeparture = true ∧ .slot x.slot ∈ t.reflect.list ∧
              .header ∈ t.reflect.list ∧ t.attends .ringDone ∧
              ((∀ y ∈ s.ring.queue l, y.id ≠ id → y.slot ≠ x.slot) → t.ring.slot x.slot = x.slotFor 6 2)) ∧
      (st ≠ .isolated → badArg (.nodeRestore a) 7) ∧
      (st = .isolated → ∃ t, exec (.nodeRestore a) s = .next t ∧ t.live.result = 0 ∧ t.chan = s.chan ∧
        ((t.loop l).node n).state = .joining ∧ (n, Mark.join) ∈ (t.loop l).order ∧
        ((s.loop l).state = .closed → ((t.loop l).node n).reach = .a) ∧
        ((s.loop l).state = .broken ∨ (s.loop l).state = .dead ∨ (s.loop l).state = .probing →
          ((t.loop l).node n).reach = .unreached) ∧
        ((s.loop l).state = .idle → ((t.loop l).node n).reach = ((s.loop l).node n).reach)))

/-! ### The request ring and the field loops -/

/-- R148, R149, R150, R151, R154, R165: the part bursts of a fetch attempt, each a grant of its own. The attempt reads Producer;
a distance beyond the slot count puts the ring in OVERRUN and fetches nothing. While the distance is above 0 it reads the
slot at the fetch index in two bursts (log 62). A host beat that stands on the hold line follows each burst, whatever its access
(State.standing, Safety.lean; log 10); while a commit is held for its read-back, which goes first, none is made (log 11). The
slot is then refused with the first check it fails, queued, or held back; one that stands earliest at a node whose state ends
it completes at once (log 26). In OVERRUN an attempt that a departure has caused reads nothing. The first clause writes out the
seven checks with the status and detail of each (Tables 9.6 and 9.7; check 6 goes node by node, log 67), and the fields of
the entry (R150). -/
def Obligations.FetchOneSlot : Prop :=
  (∀ (s : State) (bs : List Byte),
    let b (i : Nat) : Nat := (bs.getD i 0).toNat
    let w (i : Nat) : Nat := b i + 256 * b (i + 1)
    let count : Nat := if b 4 = 0 then 1 else min (b 4) 32
    let swept (m : Nat) : Prop := b 2 ≤ m ∧ m < b 2 + count ∧ m ≤ 32
    let kind (m : Nat) : NodeKind := s.kindOf (b 1) m
    let accepts (k : NodeKind) : Prop := k ≠ .none ∧ (b 0 = 3 → k = .bay) ∧ (b 0 = 4 → k = .sign) ∧ (b 0 = 5 → k = .gas)
    let manual (m : Nat) : Prop := ∃ i x, s.maps.signAt (b 1) m = some i ∧ s.capture.applied.at_ .sign i = .sign x ∧
      x.enabled = true ∧ x.mode = 1
    let c1 : Prop := b 0 ∈ [1, 3, 4, 5, 6, 8]
    let c2 : Prop := b 1 ≤ 3
    let c3 : Prop := 1 ≤ b 2 ∧ b 2 ≤ 32
    let c4 : Prop := b 4 ≤ 32
    let c5 : Prop := (b 0 ∈ [1, 5, 6] → b 5 = 0) ∧ (b 0 = 3 → b 5 = 12) ∧ (b 0 = 4 → b 5 = 16) ∧ (b 0 = 8 → b 5 ≤ 15)
    let to5 : Prop := c1 ∧ c2 ∧ c3 ∧ c4 ∧ c5
    let first6 (bad : NodeKind → Prop) : Prop :=
      ∃ m, swept m ∧ bad (kind m) ∧ ∀ k, swept k → k < m → accepts (kind k)
    let to6 : Prop := to5 ∧ ∀ m, swept m → accepts (kind m)
    let lamps : Prop := b 0 = 3 → w 8 = 65535 ∧ w 12 = 0 ∧ w 16 = 0
    let signs : Prop := b 0 = 4 → ∀ m, swept m → manual m
    (slotCheck s bs = some (7, 1) ↔ ¬c1 ∨ (to5 ∧ first6 (fun k => k ≠ .none ∧ ¬accepts k))) ∧
      (slotCheck s bs = some (7, 2) ↔ c1 ∧ ¬c2) ∧
      (slotCheck s bs = some (7, 3) ↔ (c1 ∧ c2 ∧ ¬c3) ∨ (to5 ∧ first6 (fun k => k = .none))) ∧
      (slotCheck s bs = some (7, 5) ↔ c1 ∧ c2 ∧ c3 ∧ ¬c4) ∧ (slotCheck s bs = some (7, 4) ↔ c1 ∧ c2 ∧ c3 ∧ c4 ∧ ¬c5) ∧
      (slotCheck s bs = some (8, 1) ↔ to6 ∧ ¬lamps) ∧ (slotCheck s bs = some (8, 2) ↔ to6 ∧ ¬signs) ∧
      (slotCheck s bs = none ↔ to6 ∧ lamps ∧ signs) ∧ sweepTaken (b 4) = count ∧
      ∀ id i, entryOf id i bs =
        { id := id, slot := i, kind := b 0, first := b 2, force := (bs.getD 3 0).getLsbD 0, count := count,
          payload := (bs.drop 8).take (b 5), cur := b 2, steps := 0, lastDone := 0, lastReply := [], inHand := false }) ∧
  ∀ s : State, s.mode = .run → 0 < s.ringCount → s.settled →
    let r := s.ring
    let i := r.index
    let slot := s.recAddr (.slot i)
    let producer := BitVec.ofNat 16 (num16 (Memory.readAll s.mem (s.recAddr .header) 2) 0)
    let granted : Prop := s.partFree = true ∧ s.port.wait = none
    let kept (t : State) : Prop := t.mem = s.mem ∧ t.port = { s.port with counter := 0 } ∧ t.ring.fetch = r.fetch ∧
      t.ring.index = i ∧ t.ring.queues = r.queues ∧ t.ring.slots = r.slots ∧ t.ring.completed = r.completed
    (granted → r.fetching = .idle → (r.causeProducer = true ∨ (r.causeDeparture = true ∧ r.overrun = false)) →
      ∃ t, exec .fetchAttempt s = .next t ∧ kept t ∧ t.ring.causeProducer = false ∧ t.ring.causeDeparture = false ∧
        (s.ringCount < (producer - r.fetch).toNat → t.ring.overrun = true ∧ t.ring.fetching = .idle ∧ .header ∈ t.reflect.list) ∧
        ((producer - r.fetch).toNat ≤ s.ringCount → t.ring.overrun = false ∧
          t.ring.fetching = (if producer = r.fetch then .idle else .slot producer) ∧
          (r.overrun = true → .header ∈ t.reflect.list) ∧ (r.overrun = false → t.reflect = s.reflect))) ∧
    (r.fetching = .idle → r.causeProducer = false → r.causeDeparture = true → r.overrun = true →
      exec .fetchAttempt s = .next { s with ring := { r with causeDeparture := false } }) ∧
    (∀ p, r.fetching = .slot p →
      let q := { r with fetching := .rest p (Memory.readAll s.mem slot 16) }
      granted → exec .fetchAttempt s = .next { s with ring := q, port := { s.port with counter := 0 } }) ∧
    (s.partFree = true ↔ s.port.grant = false ∧ s.port.commit = none ∧ (s.port.wait = none ∨ 16 ≤ s.port.counter)) ∧
    (r.fetching ≠ .idle ∨ r.causeProducer = true ∨ (r.causeDeparture = true ∧ r.overrun = false) →
      (s.partFree = false → exec .fetchAttempt s = .next s) ∧
      ∀ w, s.partFree = true → s.port.wait = some w →
        ∃ m t, exec .fetchAttempt { s with port := { s.port with wait := none } } = .next m ∧
          exec .fetchAttempt s = .next t ∧ m.standing w.beat w.access t) ∧
    ∀ p head, r.fetching = .rest p head → granted →
      let bs := head ++ Memory.readAll s.mem (slot + 16) 8
      let l := num8 bs 1
      let x := entryOf r.taken i bs
      let moved (t : State) : Prop := t.mem = s.mem ∧ t.port = { s.port with counter := 0 } ∧ t.ring.fetch = r.fetch + 1 ∧
        t.ring.index = (if i + 1 < s.ringCount then i + 1 else 0) ∧ .slot i ∈ t.reflect.list ∧ .header ∈ t.reflect.list ∧
        t.ring.fetching = (if p = r.fetch + 1 then .idle else .slot p) ∧ t.ring.causeProducer = r.causeProducer
      let completed (t : State) (y : Slot) : Prop :=
        t.ring.slot i = y ∧ t.ring.completed = r.completed + 1 ∧ t.attends .ringDone
      (∀ st d, slotCheck s bs = some (st, d) → ∃ t, exec .fetchAttempt s = .next t ∧ moved t ∧
        completed t { status := st, detail := d, replyLen := 0, notDone := sweepTaken (num8 bs 4), lastNode := 0, reply := [] } ∧
        t.ring.queues = r.queues) ∧
      (slotCheck s bs = none → (r.queue l).length < 8 →
        ((stateCheck (s.loop l) x = none ∨ ∃ y ∈ r.queue l, y.cur = x.cur) →
          ∃ t, exec .fetchAttempt s = .next t ∧ moved t ∧ t.ring.queue l = r.queue l ++ [x] ∧
            (t.ring.slot i).status = 1 ∧ t.ring.completed = r.completed ∧ t.ring.taken = r.taken + 1) ∧
        ∀ st d, stateCheck (s.loop l) x = some (st, d) → (∀ y ∈ r.queue l, y.cur ≠ x.cur) →
          ∃ t, exec .fetchAttempt s = .next t ∧ moved t ∧ t.ring.queue l = r.queue l ∧ completed t (x.slotFor st d)) ∧
      (slotCheck s bs = none → 8 ≤ (r.queue l).length → ∃ t, exec .fetchAttempt s = .next t ∧ kept t ∧
        t.ring.blocked = some i ∧ t.ring.fetching = .idle ∧ t.reflect = s.reflect)

/-- R138, R145, R146, R151, Table 9.3: which items an end may take and which of them it takes. An end takes nothing while it is
held or a repair test is due, and end B nothing while A is free and has an item to take. It takes the first of the lowest
class that has one. The class of a FAN node's OUTPUT mark goes by the Override State of the Air Unit (log 63). In a class a
request kept by split discovery comes first, then the marks in their pending order; class 4 holds the Host Queue entries that
stand earliest for their node. The order among kept requests is log 53's. A SHOW mark waits for the refresh timer of each
enabled sign on its node, and for the completion that starts it (R58, log 52); the OUTPUT mark of a BAY node waits for the notices
of the node's loss that the Occupancy Unit has yet to take (R36, log 69). -/
def Obligations.DispatchChooses : Prop :=
  ∀ (s : State) (j : Nat) (L : Loop) (q : List Entry) (e : End),
    let items (c : Nat) : List Item := classItems s j L q e c
    let loopAllows (nd : Node) (join : Bool) : Prop :=
      (nd.state = .ready ∨ ((nd.state = .joining ∨ nd.state = .failed) ∧ join = true)) ∧
        ((L.state = .closed ∧ e = .a) ∨
          (L.state = .broken ∧ usesBoth L nd = false ∧ nd.reach = endReach e) ∨
          (L.state = .broken ∧ usesBoth L nd = true ∧ e = .a ∧ L.bothFree = true) ∨
          (L.state = .dead ∧ join = true ∧ (nd.state = .failed ∨ (nd.state = .joining ∧ nd.reach = .unreached)) ∧ e = .a ∧
            L.bothFree = true))
    (∀ l : Fin 4, let M := s.loop l
      (mayDispatch s l e = true ↔ M.flight e = none ∧ M.both = false ∧ M.repairDue = false ∧
        (e = .b → M.endA ≠ none ∨ chooseItem s l M (s.ring.queue l) .a = none)) ∧
      (mayDispatch s l e = false → exec (.endDispatch l e) s = .next s)) ∧
    (chooseItem s j L q e = none ↔ ∀ c, 1 ≤ c → c ≤ 6 → items c = []) ∧
    (∀ c i, chooseItem s j L q e = some (c, i) ↔
      1 ≤ c ∧ c ≤ 6 ∧ (items c).head? = some i ∧ ∀ c', 1 ≤ c' → c' < c → items c' = []) ∧
    (∀ nd, usesBoth L nd = true ↔ L.state ≠ .closed ∧ (nd.state = .failed ∨ nd.reach = .unreached)) ∧
    (∀ nd, markClass s nd .join = 3 ∧ markClass s nd .show = 5 ∧
      markClass s nd .output = (if nd.kind = .fan ∧ s.air.override ≠ .normal then 1 else 2) ∧
      markClass s nd .poll = (if nd.pollDue + 2 * pollPeriod s.cfg.params nd.kind < s.clock then 2 else 6)) ∧
    (∀ c, ∃ kept rest, items c = kept ++ rest ∧ (∀ i ∈ kept, ∃ n r, i = .kept n r) ∧ ∀ i ∈ rest, ∀ n r, i ≠ .kept n r) ∧
    (∀ c n r, Item.kept n r ∈ items c ↔ n ∈ addresses ∧ (L.node n).out = some r ∧ (L.node n).state = .ready ∧ r.cls = c ∧
      loopAllows (L.node n) (decide (r.kind = 7))) ∧
    (∀ c n m, Item.work n m ∈ items c ↔ (n, m) ∈ L.order ∧ markClass s (L.node n) m = c ∧ (L.node n).out = none ∧
      (∀ b, (L.node n).busy = some b → b ≤ s.secs) ∧ loopAllows (L.node n) (decide (m = .join)) ∧
      (m = .show → (∀ i, (s.guid.sign i).inForce.enabled = true → (s.guid.sign i).inForce.loop = j →
          (s.guid.sign i).inForce.node = n → (s.guid.sign i).refresh = none) ∧
        ∀ st bs, { src := .controller j, dst := .guidance, body := .showDone n st bs } ∉ s.chan) ∧
      (m = .output → ∀ old new, nodeUsable old = true → nodeUsable new = false →
        { src := .controller j, dst := .occupancy, body := .nodeNotice n old new } ∉ s.chan)) ∧
    (∀ c, ((items c).filterMap (fun i => match i with | .work n m => some (n, m) | .kept _ _ | .host _ => none)).Sublist L.order) ∧
    (∀ c x, Item.host x ∈ items c ↔ c = 4 ∧ x ∈ earliest [] q ∧ (L.node x.cur).out = none ∧ (L.node x.cur).state = .ready ∧
      loopAllows (L.node x.cur) false) ∧
    ∀ x, x ∈ earliest [] q ↔ ∃ before behind, q = before ++ x :: behind ∧ x.inHand = false ∧ ∀ y ∈ before, y.cur ≠ x.cur

/-- R146, R143, R130, R151, R152: a dispatch hands the chosen item to its end: a mark is cleared and its request becomes the
node's Outstanding Request; a ring entry whose checks pass goes out for its current node, its slot written ACTIVE at the first
frame of the entry and not at a later step; one that a check ends completes with that check's outcome and sends no frame; a
kept request goes out again with its Retry Count. The work of a mark is built from the state of its unit at that moment: a POLL
and a JOIN carry nothing; the MODIFY of a BAY node the masks that set and clear the differing bits of the lamp word (R34, R35);
the SET of a LIGHT node its four desired levels (R70, R71), that of a FAN node the Commanded Speed of its fan, or 0 (R112);
a SHOW the content of the one sign in AUTO or BLANK mode that the record in force at the Guidance Unit places on the node
(R58). The Sequence is the node's Next Sequence, but 0 in JOIN and ECHO; what a frame is, FramesAtEnds writes out. The checks of
R151 are written out: by the state of the entry's node, while it waits, and the two made when the entry
is chosen, with R81's answer on a last valid head. -/
def Obligations.EndDispatchHandsWork : Prop :=
  (∀ (nd : Node) (k seq : Nat), controlByte k seq = 16 * k + seq ∧
    (k = 7 ∨ k = 8 → seqFor nd k = 0) ∧ (k ≠ 7 → k ≠ 8 → seqFor nd k = nd.seq)) ∧
  ∀ (s : State) (l : Fin 4) (e : End) (c : Nat), mayDispatch s l e = true →
    let L := s.loop l
    let q := s.ring.queue l
    let sent (t : State) (n : Nat) (r : Request) (retry : Nat) : Prop :=
      ((t.loop l).node n).out = some r ∧ ((t.loop l).node n).retry = retry ∧
        ((L.node n).state = .ready → ((t.loop l).node n).state = .waiting) ∧
        ((L.node n).state ≠ .ready → ((t.loop l).node n).state = (L.node n).state) ∧
        (t.loop l).flight e = some { frame := r.frame, work := .request n, timer := none, reply := true,
                                     pass := decide (L.state = .closed) } ∧
        (t.loop l).both = usesBoth L (L.node n)
    (∀ n m, chooseItem s l L q e = some (c, .work n m) →
      let w := buildWork s s.free l n (L.node n).kind m
      ∃ t, exec (.endDispatch l e) s = .next t ∧ (n, m) ∉ (t.loop l).order ∧
        sent t n { kind := w.1, frame := mkFrame n (controlByte w.1 (seqFor (L.node n) w.1)) w.2, source := .mark m, cls := c } 0) ∧
    (∀ n, let k := (L.node n).kind
      let free (i : Nat) : Prop := ∃ b, s.occ.bayAt l n i = some b ∧ (s.occ.bay b).state = .free
      let differs (i : Nat) : Prop :=
        i < 16 ∧ ∀ w, (s.occ.node l n).reported = some w → ¬(w.getLsbD i = true ↔ free i)
      buildWork s s.free l n k .poll = (1, []) ∧ buildWork s s.free l n k .join = (7, []) ∧
      (k = .bay → ∃ a o : BitVec 32,
        buildWork s s.free l n k .output = (3, bytesOfNat 4 a.toNat ++ bytesOfNat 4 o.toNat ++ [0, 0, 0, 0]) ∧
        ∀ i, i < 32 → (a.getLsbD i = false ↔ differs i ∧ ¬free i) ∧ (o.getLsbD i = true ↔ differs i ∧ free i)) ∧
      (k = .light → buildWork s s.free l n k .output = (2, (List.range 4).map (fun o => BitVec.ofNat 8
        (match s.maps.chanAt l n o with | none => 0 | some i => (s.light.chan i).level)))) ∧
      (k = .fan → buildWork s s.free l n k .output =
        (2, [BitVec.ofNat 8 (match s.maps.fanAt l n with | none => 0 | some f => (s.fan.fan f).command)]))) ∧
    (∀ n i, let x := (s.guid.sign i).inForce
      x.enabled = true → (x.mode = 0 ∨ x.mode = 2) → x.loop = l → x.node = n →
      (∀ j, let y := (s.guid.sign j).inForce
        y.enabled = true → y.loop = l → y.node = n → j = i) →
      buildWork s s.free l n (L.node n).kind .show = (4, showBytes (signContent s.guid x))) ∧
    (∀ n r, chooseItem s l L q e = some (c, .kept n r) →
      ∃ t, exec (.endDispatch l e) s = .next t ∧ (t.loop l).order = L.order ∧ sent t n r (L.node n).retry) ∧
    (∀ (M : Loop) (x : Entry), let nd := M.node x.cur
      (nd.state = .failed → stateCheck M x =
        some (9, match nd.cause with | .none => 0 | .timeout => 1 | .mismatch => 2 | .unreached => 3)) ∧
      (nd.state = .isolated → stateCheck M x = some (10, 0)) ∧
      (nd.state ≠ .failed → nd.state ≠ .isolated → stateCheck M x = none)) ∧
    (∀ x : Entry,
      let manual : Prop := ∃ i y, s.maps.signAt l x.cur = some i ∧ s.capture.applied.at_ .sign i = .sign y ∧
        y.enabled = true ∧ y.mode = 1
      let valid (p : Nat × Nat) : Prop := let h := s.air.head p.1 p.2
        h.usable = true ∧ h.fresh.isSome = true ∧ h.fault = false ∧ h.zeroing = false ∧ h.zeroFailed = false
      let last : Prop := valid (l, x.cur) ∧ ∃ z, z < 16 ∧ (s.air.zone z).inForce.enabled = true ∧
        (∃ p ∈ (s.air.zone z).inForce.heads, p.2 ≠ 0 ∧ nodeKey p.1 p.2 = nodeKey l x.cur) ∧
        ∀ p ∈ (s.air.zone z).inForce.heads, p.2 ≠ 0 → p ≠ (l.val, x.cur) → ¬valid p
      (chosenCheck s l x = some (8, 2) ↔ x.kind = 4 ∧ ¬manual) ∧
        (chosenCheck s l x = some (11, 0) ↔ x.kind = 5 ∧ x.force = false ∧ last) ∧
        (chosenCheck s l x = none ↔ (x.kind = 4 → manual) ∧ (x.kind = 5 → x.force = false → ¬last))) ∧
    ∀ x, s.settled → chooseItem s l L q e = some (c, .host x) →
      (chosenCheck s l x = none →
        ∃ t, exec (.endDispatch l e) s = .next t ∧ (t.loop l).order = L.order ∧
          (x.steps = 0 → t.ring.slot x.slot = { s.ring.slot x.slot with status := 2 } ∧ .slot x.slot ∈ t.reflect.list) ∧
          (x.steps ≠ 0 → t.ring.slots = s.ring.slots ∧ t.reflect = s.reflect) ∧
          t.ring.queue l = q.replace x { x with inHand := true } ∧
          sent t x.cur { kind := x.kind, frame := mkFrame x.cur (controlByte x.kind (seqFor (L.node x.cur) x.kind)) x.payload,
                         source := .host x.slot x.id, cls := 4 } 0) ∧
      ∀ st d, chosenCheck s l x = some (st, d) → chooseItem s l L (q.erase x) e = none →
        ∃ t, exec (.endDispatch l e) s = .next t ∧ t.loop l = L ∧ t.ring.queue l = q.erase x ∧
          t.ring.slot x.slot = x.slotFor st d ∧ t.ring.completed = s.ring.completed + 1 ∧ t.attends .ringDone

/-- R126, R130, R134, R135, R138, R139, R140, R144, R145: the timers of a loop: the reply timeout starts as the last byte
leaves, a probe or poll that is due sets its mark once, Busy Until ends, the repair test is announced, sent and counted as
missed, and an abandoned frame gives its end back: in IDLE the start test follows once both ends are free (R139), in PROBING
discovery passes to its next node or ends, with every Reach as it stood (R140), and in CLOSED a pass-through that has not come
is a miss. That the next repair test is due 5 s after the missed one's timeout is log 54's. -/
def Obligations.LoopTimersRun : Prop :=
  ∀ (s : State) (l : Fin 4) (e : End) (n : Nat),
    let L := s.loop l
    (∀ f, L.flight e = some f → f.timer = none → ∃ t, exec (.frameSent l e) s = .next t ∧
      (t.loop l).flight e = some { f with timer := some (s.clock + s.cfg.params.replyTimeout) } ∧
      (t.loop l).framesSent = satInc L.framesSent 1 ∧ (e = .a → (t.loop l).lastA = f.frame)) ∧
    ((L.node n).state = .failed → (L.node n).probeTaken = false → (L.node n).probeDue ≤ s.secs →
      ∃ t, exec (.probeDue l n) s = .next t ∧ (n, Mark.join) ∈ (t.loop l).order ∧ ((t.loop l).node n).state = .failed) ∧
    (nodeUsable (L.node n).state = true → (L.node n).pollTaken = false → (L.node n).pollDue ≤ s.clock →
      ∃ t, exec (.nextPollDue l n) s = .next t ∧ (n, Mark.poll) ∈ (t.loop l).order ∧
        ((t.loop l).node n).pollDue = (L.node n).pollDue) ∧
    (∀ b, (L.node n).busy = some b → b ≤ s.secs → ∃ t, exec (.busyUntilReached l n) s = .next t ∧
      t.loop l = L.setNode n { L.node n with busy := none }) ∧
    (s.due L.repair = true → ∃ t, exec (.repairTestDue l) s = .next t ∧
      t.loop l = { L with repair := none, repairDue := true }) ∧
    (L.repairDue = true → L.bothFree = true → ∃ t, exec (.repairTestSend l) s = .next t ∧
      t.loop l = { L with repairDue := false, both := true,
                          endA := some { frame := testFrame, work := .repairTest, timer := none, reply := false, pass := true } }) ∧
    (∀ f, L.dueFlight s .a = some f → f.work = .repairTest → ∃ t, exec (.repairTestTimeout l) s = .next t ∧
      t.loop l = { L with endA := none, both := false, misses := satInc L.misses 1, repair := some (s.clock + 5000) }) ∧
    ∀ f, L.dueFlight s e = some f → f.work = .abandoned →
      let M := L.setFlight e none
      let test : Flight := { frame := testFrame, work := .startTest, timer := none, reply := false, pass := true }
      let echo (m : Nat) : Flight := { frame := echoFrame m, work := .discovery m, timer := none, reply := true, pass := false }
      let frees (t : State) : Prop := t.loop l = M
      (f.pass = false → L.state ≠ .idle → L.state ≠ .probing → ∃ t, exec (.abandonedFrameTimeout l e) s = .next t ∧ frees t) ∧
      (f.pass = false → L.state = .idle → ∃ t, exec (.abandonedFrameTimeout l e) s = .next t ∧
        (M.endA ≠ none ∨ M.endB ≠ none ∨ L.both = true ∨ L.configured = false → frees t) ∧
        (M.endA = none → M.endB = none → L.both = false → (∃ k, (L.node k).kind ≠ .none) →
          t.loop l = { M with both := true, endA := some test })) ∧
      (f.pass = false → L.state = .probing → ∀ d, L.disc = some d → ∃ t, exec (.abandonedFrameTimeout l e) s = .next t ∧
        (∀ k g, L.endA = some g ∨ L.endB = some g → g.work = .discovery k → frees t) ∧
        (M.endA = none → M.endB = none →
          (∀ m d', discPick L d = some (m, d') → t.loop l = { M with disc := some d', endA := some (echo m) }) ∧
          (discPick L d = none → ∀ k, s.discovered l k (L.node k).reach d.answered t))) ∧
      (f.pass = true → L.state = .closed → e = .a →
        (L.missRun = 0 → ∃ t, exec (.abandonedFrameTimeout l e) s = .next t ∧
          t.loop l = { M with missRun := 1, misses := satInc L.misses 1 }) ∧
        (1 ≤ L.missRun → ∃ t, exec (.abandonedFrameTimeout l e) s = .next t ∧ (t.loop l).misses = satInc L.misses 1 ∧
          s.probes l t))

/-- R126, R130, R135, R137, R138: what becomes of a frame that is no reply to a request. A malformed one counts in Check
Errors, a reply that is not that of the frame in flight on its end in Stale Replies; at B in CLOSED and during a test a
frame is taken as a pass-through alone: it ends the open pass-through outcome, or closes the loop, or is discarded; a reply
to the ECHO of split discovery gives its node the Reach of its end and discovery goes on to the next node, in address order,
then to those restored behind it (R141), and ends after the last with the failing of the unreached nodes. The first clauses
write out the frame of Table 8.1 with its Check (R126), which the receiver reads back as it was made, and the four ways in which
a frame is malformed. -/
def Obligations.FramesAtEnds : Prop :=
  (crc16 [] = 0xFFFF#16 ∧
    (∀ (bs : List Byte) (b : Byte), crc16 (bs ++ [b]) =
      (List.range 8).foldl (fun (c : BitVec 16) i => if c.getLsbD 0 = b.getLsbD i then c >>> 1 else (c >>> 1) ^^^ 0xA001#16) (crc16 bs)) ∧
    (∀ (a c : Nat) (p : List Byte),
      let body : List Byte := [BitVec.ofNat 8 a, BitVec.ofNat 8 c, BitVec.ofNat 8 p.length] ++ p
      mkFrame a c p = body ++ [(crc16 body).extractLsb' 0 8, (crc16 body).extractLsb' 8 8] ∧
      (a < 256 → c < 256 → c.testBit 3 = false → p.length ≤ 16 →
        parseFrame (mkFrame a c p) = some { addr := a, control := c, payload := p, whole := mkFrame a c p })) ∧
    testFrame = mkFrame 0 128 [] ∧ (∀ n, echoFrame n = mkFrame n 128 []) ∧
    ∀ bytes : List Byte,
      let n := (bytes.getD 2 0).toNat
      let body := bytes.take (n + 3)
      (parseFrame bytes = none ↔ bytes.length < 3 ∨ 16 < n ∨ bytes.length < n + 5 ∨ (bytes.getD 1 0).getLsbD 3 = true ∨
        (bytes.drop (n + 3)).take 2 ≠ [(crc16 body).extractLsb' 0 8, (crc16 body).extractLsb' 8 8]) ∧
      ∀ x, parseFrame bytes = some x → x.addr = (bytes.getD 0 0).toNat ∧ x.control = (bytes.getD 1 0).toNat ∧
        x.payload = (bytes.drop 3).take n ∧ x.whole = bytes.take (n + 5)) ∧
  (∀ (L : Loop) (d : Disc),
    let takes (m : Nat) : Prop := (L.node m).state ≠ .absent ∧ (L.node m).state ≠ .isolated
    (discPick L d = none ↔ (∀ m ∈ addresses, d.next ≤ m → ¬takes m) ∧ ∀ m ∈ d.behind, ¬takes m) ∧
    ∀ m d', discPick L d = some (m, d') → takes m ∧ d'.current = some m ∧ d'.answered = d.answered ∧
      ((m ∈ addresses ∧ d.next ≤ m ∧ (∀ k ∈ addresses, d.next ≤ k → k < m → ¬takes k) ∧ d'.next = m + 1 ∧
          d'.behind = d.behind) ∨
        ((∃ before rest, d.behind = before ++ m :: rest ∧ ∀ k ∈ before, ¬takes k) ∧
          (∀ k ∈ addresses, d.next ≤ k → ¬takes k) ∧ d'.next = 33 ∧
          d'.behind = d.behind.filter (fun k => decide (m < k))))) ∧
  ∀ (s : State) (l : Fin 4) (e : End) (bytes : List Byte),
    let L := s.loop l
    (parseFrame bytes = none → ∃ t, exec (.frameReceived l e bytes) s = .next t ∧
      t.loop l = { L with checkErrors := satInc L.checkErrors 1 }) ∧
    ∀ x, parseFrame bytes = some x →
      (e = .b → (L.state = .closed ∨ L.testing = true) →
        (x.whole ≠ L.lastA → ∃ t, exec (.frameReceived l e bytes) s = .next t ∧ t.loop l = L) ∧
        ∀ f, x.whole = L.lastA → L.endA = some f → f.pass = true → f.timer.isSome = true →
          (L.testing = false → ∃ t, exec (.frameReceived l e bytes) s = .next t ∧
            t.loop l = { L with missRun := 0,
                                endA := if f.reply = false ∧ f.work ≠ .abandoned then none else some { f with pass := false } }) ∧
          (L.testing = true → ∃ t, exec (.frameReceived l e bytes) s = .next t ∧ (t.loop l).state = .closed ∧
            (t.loop l).endA = none ∧ (t.loop l).endB = none ∧ (t.loop l).both = false ∧ (t.loop l).missRun = 0 ∧
            (t.loop l).repair = none ∧ (t.loop l).repairDue = false ∧
            ∀ n ∈ addresses, (t.loop l).node n = { L.node n with reach := .a })) ∧
      (¬(e = .b ∧ (L.state = .closed ∨ L.testing = true)) →
        (x.addr < 128 → ∃ t, exec (.frameReceived l e bytes) s = .next t ∧ t.loop l = L) ∧
        (128 ≤ x.addr → (∀ f, L.flight e = some f → matchesFlight f x = false) →
          ∃ t, exec (.frameReceived l e bytes) s = .next t ∧ t.loop l = { L with stale := satInc L.stale 1 }) ∧
        ∀ f n d, 128 ≤ x.addr → L.flight e = some f → matchesFlight f x = true → f.work = .discovery n → L.disc = some d →
          ∃ t, exec (.frameReceived l e bytes) s = .next t ∧ ((t.loop l).node n).reach = endReach e ∧
            (∀ m d', discPick L { d with answered := true } = some (m, d') → (t.loop l).state = L.state ∧
              (t.loop l).disc = some d' ∧
              (t.loop l).endA = some { frame := echoFrame m, work := .discovery m, timer := none, reply := true,
                                       pass := decide (L.state = .closed) }) ∧
            (discPick L { d with answered := true } = none → s.discovered l n (endReach e) true t))

/-- R131, R129, R132, R136, R144: a valid reply to a request other than JOIN and ECHO. OUT_OF_STEP takes the node to JOINING with
its JOIN mark set, and the mark of an internal request, dropped by it, is set again (log 41 on a POLL's); any other status advances
Next Sequence and takes the node to READY with no request left. NODE_BUSY also sets the mark of an internal request again
and holds its node for a second, and completes nothing. A DONE reply, and the
completion of an internal SET, MODIFY or SHOW, goes to the unit that owns the node, with the payload's fields; a host
request's outcome goes to the Request Ring Unit, where a status above 6 is taken as a refusal with that byte as its detail by
the model's reading (log 18). A POLL that ends clears the POLL mark and sets Next Poll Due. A node that was UNREACHED takes
the Reach of the end. The first clause writes out the poll periods in ms (Table 9.2). -/
def Obligations.ReplyEndsRequest : Prop :=
  (∀ p : Params, [NodeKind.bay, .gas, .fan, .light, .sign].map (pollPeriod p) =
    [p.bayPoll, 1000 * p.gasPoll, 1000 * p.fanPoll, 1000 * p.lightPoll, 1000 * p.signPoll]) ∧
  ∀ (s : State) (l : Fin 4) (e : End) (bytes : List Byte) (x : Received) (f : Flight) (n : Nat) (r : Request)
    (st : Byte) (rest : List Byte),
    let L := s.loop l
    parseFrame bytes = some x → ¬(e = .b ∧ (L.state = .closed ∨ L.testing = true)) → 128 ≤ x.addr → L.flight e = some f →
    matchesFlight f x = true → f.work = .request n → (L.node n).out = some r → r.kind ≠ 7 → r.kind ≠ 8 →
    x.payload = st :: rest →
    ∃ t, exec (.frameReceived l e bytes) s = .next t ∧ ((t.loop l).node n).out = none ∧ ((t.loop l).node n).retry = 0 ∧
      (t.loop l).both = false ∧
      (f.pass = false → (t.loop l).flight e = none) ∧
      (f.pass = true → (t.loop l).flight e = some { f with reply := false }) ∧
      ((t.loop l).node n).reach = (if (L.node n).reach = .unreached then endReach e else (L.node n).reach) ∧
      (st = 6 → ((t.loop l).node n).state = .joining ∧ (n, Mark.join) ∈ (t.loop l).order) ∧
      (st ≠ 6 → ((t.loop l).node n).state = .ready ∧ ((t.loop l).node n).seq = ((L.node n).seq + 1) % 8) ∧
      (∀ m, r.source = .mark m →
        (st = 4 → (n, m) ∈ (t.loop l).order ∧ ((t.loop l).node n).busy = some (s.secs + 1) ∧
          ((L.node n).state = .waiting → t.chan = s.chan)) ∧
        (st = 6 → (n, m) ∈ (t.loop l).order) ∧
        (st ≠ 4 → st ≠ 6 → r.kind = 4 → (L.node n).kind = .sign → (L.node n).state = .waiting →
          t.chan = s.chan ++ [{ src := .controller l, dst := .guidance, body := .showDone n st (framePayload r.frame) }])) ∧
      (let told (u : UnitId) (m : Body) : Prop := { src := .controller l, dst := u, body := m } ∈ t.chan
      let k := (L.node n).kind
      let completes : Prop := st = 0 ∨ (st ≠ 4 ∧ st ≠ 6 ∧ ∃ m, r.source = .mark m)
      (r.kind = 1 → st = 0 →
        (k = .bay → 8 ≤ rest.length → told .occupancy (.bayPoll n (BitVec.ofNat 16 (num16 rest 0))
          (BitVec.ofNat 16 (num16 rest 2)) (BitVec.ofNat 32 (natOfBytes ((rest.drop 4).take 4))))) ∧
        (k = .gas → 5 ≤ rest.length → told .air (.gasPoll n (num16 rest 0) (num16 rest 2) (rest.getD 4 0))) ∧
        (k = .fan → 2 ≤ rest.length → told .fan (.fanPoll n (rest.getD 0 0) (num8 rest 1))) ∧
        (k = .light → 4 ≤ rest.length → told .lighting (.lightPoll n ((rest.take 4).map (fun v => v.toNat)))) ∧
        (k = .sign → 1 ≤ rest.length → told .guidance (.signPoll n (rest.getD 0 0)))) ∧
      (r.kind = 3 → k = .bay →
        (st = 0 → 4 ≤ rest.length → told .occupancy (.modify n 0 (BitVec.ofNat 32 (natOfBytes (rest.take 4))))) ∧
        (st ≠ 0 → completes → told .occupancy (.modify n st 0))) ∧
      (r.kind = 2 → completes →
        (k = .light → told .lighting (.lightSet n st ((framePayload r.frame).map (fun v => v.toNat)))) ∧
        (k = .fan → told .fan (.fanSet n st))) ∧
      (r.kind = 4 → completes → k = .sign → told .guidance (.showDone n st (framePayload r.frame))) ∧
      (∀ slot id, r.source = .host slot id →
        let o : StepOutcome := if st = 0 then .done rest else if st = 6 then .ended 6 1 else .ended 4 st.toNat
        told .ring (.hostStep slot id n o) ∧
        (st ≠ 0 → st ≠ 6 → (L.node n).state = .waiting →
          t.chan = s.chan ++ [{ src := .controller l, dst := .ring, body := .hostStep slot id n o }])) ∧
      (r.kind = 1 → (L.node n).state = .waiting →
        (st ≠ 4 → ((t.loop l).node n).pollDue = s.clock + pollPeriod s.cfg.params k ∧
          (¬(st = 6 ∧ r.source = .mark .poll) → (n, Mark.poll) ∉ (t.loop l).order)) ∧
        (st = 4 → ((t.loop l).node n).pollDue = (L.node n).pollDue)))

/-- R133, R134, R136, R131: a valid JOIN reply by the node's state and what it says, and a valid ECHO reply. A node of the
Configured Kind that answers DONE goes to READY with Next Sequence 1; another DONE answer is a MISMATCH; any other status
sets the JOIN mark again. An answered probe of a DEAD loop takes it to BROKEN. An ECHO advances no Sequence. -/
def Obligations.JoinAndEchoReplies : Prop :=
  ∀ (s : State) (l : Fin 4) (e : End) (bytes : List Byte) (x : Received) (f : Flight) (n : Nat) (r : Request)
    (st : Byte) (rest : List Byte),
    let L := s.loop l
    let nd := L.node n
    parseFrame bytes = some x → ¬(e = .b ∧ (L.state = .closed ∨ L.testing = true)) → 128 ≤ x.addr → L.flight e = some f →
    matchesFlight f x = true → f.work = .request n → nd.out = some r → x.payload = st :: rest →
    ∃ t, exec (.frameReceived l e bytes) s = .next t ∧
      let nd' := (t.loop l).node n
      nd'.out = none ∧
      (r.kind = 8 → nd'.state = .ready ∧ nd'.seq = nd.seq ∧ nd'.retry = 0 ∧
        ∀ slot id, r.source = .host slot id →
          { src := .controller l, dst := .ring, body := .hostStep slot id n (.done rest) } ∈ t.chan) ∧
      ∀ k more, r.kind = 7 → rest = k :: more → nd.kind ≠ .none →
        (st = 0 → kindOfCode k.toNat = nd.kind →
          nd'.state = .ready ∧ nd'.seq = 1 ∧ nd'.retry = 0 ∧ nd'.cause = .none ∧ nd'.reach = endReach e ∧
            ((nd.state = .joining ∨ nd.state = .failed) → (n, Mark.poll) ∈ (t.loop l).order ∧ nd'.pollDue = s.clock ∧
              ∀ u, ownerOf nd.kind = some u →
                { src := .controller l, dst := u, body := .nodeNotice n nd.state .ready } ∈ t.chan) ∧
            ((nd.state = .failed ∨ nd.reach = .unreached) → L.state = .dead → (t.loop l).state = .broken)) ∧
        (nd.state = .failed → ¬(st = 0 ∧ kindOfCode k.toNat = nd.kind) →
          nd'.state = .failed ∧ nd'.cause = (if st = 0 then .mismatch else nd.cause) ∧ nd'.probeDue = s.secs + 10 ∧
            nd'.reach = nd.reach) ∧
        (nd.state = .joining → ¬(st = 0 ∧ kindOfCode k.toNat = nd.kind) →
          nd'.reach = (if nd.reach = .unreached then endReach e else nd.reach) ∧
          (nd.reach = .unreached → L.state = .dead → (t.loop l).state = .broken) ∧
          (st = 0 → nd'.state = .failed ∧ nd'.cause = .mismatch ∧ nd'.probeDue = s.secs + 10 ∧ t.attends .nodeFailed) ∧
          (st ≠ 0 → nd'.state = .joining ∧ (n, Mark.join) ∈ (t.loop l).order ∧ nd'.busy = some (s.secs + 1)))

/-- R132, R134, R135, R136, R137: timeouts. A request is sent again below three resends, and at the fourth timeout its node goes
to FAILED with cause TIMEOUT, its host step ending TIMEOUT and its internal work's mark set again. A frame that goes on A and
then on B, and the ECHO of split discovery, go on B when A's reply has timed out; the second timeout resends the pair from A,
ends the probe of a FAILED node, or marks the discovered node UNREACHED. A reply timeout with the pass-through still open
counts that miss first. In CLOSED the first pass-through miss of a run only counts; the second in a row, and a start
test without its pass-through, is a break: LOOP_BROKEN is set, a request in flight is returned to its node and discovery runs
(at once to DEAD when no node is to be taken). Where a request's reply timeout is taken before its pass-through is known, it is
that second miss and counts no timeout. As the last node is found UNREACHED discovery ends and the unreached nodes fail;
FramesAtEnds says which node discovery takes next. Three clauses are the model's own reading. Each frame of a pair counts in
Timeouts, so the unanswered pair of an UNREACHED node's JOIN adds 2, where R136 counts the pair as one sending under R132 (log
56, DEDUCED). A JOIN that fails its node at its fourth timeout has its JOIN mark set again at once (log 21, DEDUCED). A reply
timeout may be taken before the pass-through of its frame is known, and then does the miss (log 22, DEDUCED). -/
def Obligations.TimeoutsTaken : Prop :=
  ∀ (s : State) (l : Fin 4) (n : Nat) (f : Flight),
    let L := s.loop l
    let nd := L.node n
    let resent : Flight :=
      { frame := f.frame, work := .request n, timer := none, reply := true, pass := decide (L.state = .closed) }
    (∀ e, dueRequest s l e = some (n, f) → L.state ≠ .probing → (f.pass = true → L.state = .closed ∧ L.missRun = 0) →
      let first : Prop := L.both = true ∧ e = .a
      let counted (t : State) : Prop := (t.loop l).timeouts = satInc L.timeouts 1 ∧ (t.loop l).state = L.state ∧
        (t.loop l).missRun = (if f.pass then 1 else L.missRun) ∧
        (t.loop l).misses = (if f.pass then satInc L.misses 1 else L.misses)
      let again (t : State) : Prop := counted t ∧ (t.loop l).endA = none ∧ (t.loop l).both = true ∧
        (t.loop l).endB = some resent ∧ (t.loop l).node n = nd
      (first → (∃ t, exec (.probeTimeout l e) s = .next t ∧ again t) ∧
        (nd.state ≠ .failed → ∃ t, exec (.replyTimeout l e) s = .next t ∧ again t)) ∧
      (¬first → nd.state ≠ .failed → nd.retry < 3 → ∃ t, exec (.replyTimeout l e) s = .next t ∧ counted t ∧
        (t.loop l).node n = { nd with retry := nd.retry + 1 } ∧ (t.loop l).both = L.both ∧
        (L.both = true → (t.loop l).endB = none ∧ (t.loop l).endA = some resent) ∧
        (L.both = false → (t.loop l).flight e = some resent)) ∧
      (¬first → nd.state ≠ .failed → nd.retry = 3 → ∃ t, exec (.replyTimeout l e) s = .next t ∧ counted t ∧
        ((t.loop l).node n).state = .failed ∧ ((t.loop l).node n).cause = .timeout ∧ ((t.loop l).node n).out = none ∧
        ((t.loop l).node n).retry = 0 ∧ ((t.loop l).node n).probeDue = s.secs + 10 ∧ t.attends .nodeFailed ∧
        (t.loop l).flight e = none ∧ (t.loop l).both = false ∧
        (∀ r m, nd.out = some r → r.source = .mark m → (n, m) ∈ (t.loop l).order) ∧
        ∀ r slot id, nd.out = some r → r.source = .host slot id →
          { src := .controller l, dst := .ring, body := .hostStep slot id n (.ended 5 1) } ∈ t.chan) ∧
      (¬first → nd.state = .failed → ∃ t, exec (.probeTimeout l e) s = .next t ∧ counted t ∧
        (t.loop l).flight e = none ∧ (t.loop l).both = false ∧ ((t.loop l).node n).state = .failed ∧
        ((t.loop l).node n).out = none ∧ ((t.loop l).node n).probeDue = s.secs + 10)) ∧
    (L.dueFlight s .a = some f → f.work = .discovery n → ∃ t, exec (.discoveryEchoTimeout l) s = .next t ∧
      (t.loop l).endA = none ∧ (t.loop l).timeouts = L.timeouts ∧ (t.loop l).misses = L.misses ∧
      ∃ g, (t.loop l).endB = some g ∧ g.frame = f.frame ∧ g.work = .discovery n ∧ g.timer = none) ∧
    (L.dueFlight s .a = none → L.dueFlight s .b = some f → f.work = .discovery n →
      ∃ t, exec (.discoveryEchoTimeout l) s = .next t ∧ ((t.loop l).node n).reach = .unreached ∧
        (t.loop l).timeouts = L.timeouts ∧ (t.loop l).misses = L.misses ∧
        ∀ d, L.disc = some d → discPick L d = none → s.discovered l n .unreached d.answered t) ∧
    (L.dueFlight s .a = some f →
      let broken (t : State) : Prop := ((t.loop l).state = .probing ∨ (t.loop l).state = .dead) ∧
        (t.loop l).misses = satInc L.misses 1 ∧ (t.loop l).timeouts = L.timeouts ∧ s.probes l t
      (L.state = .closed → f.pass = true → L.missRun = 0 → ∃ t, exec (.passThroughMiss l) s = .next t ∧
        (t.loop l).state = .closed ∧ (t.loop l).missRun = 1 ∧ (t.loop l).misses = satInc L.misses 1) ∧
      (L.state = .closed → f.pass = true → 1 ≤ L.missRun → ∃ t, exec (.passThroughMiss l) s = .next t ∧ broken t) ∧
      (L.state = .closed → f.pass = true → 1 ≤ L.missRun → dueRequest s l .a = some (n, f) → n ∈ addresses →
        (nd.state = .waiting ∨ nd.state = .joining → ∃ t, exec (.replyTimeout l .a) s = .next t ∧ broken t) ∧
        (nd.state = .failed → ∃ t, exec (.probeTimeout l .a) s = .next t ∧ broken t)) ∧
      (f.work = .startTest → ∃ t, exec (.startTestTimeout l) s = .next t ∧ broken t))

/-- R153, R154, R151: the outcome of the step in hand of a Host Queue entry. An outcome other than DONE completes its slot
with it; a DONE step counts, completes the slot at the Sweep Count or past node 32, and otherwise moves the entry to the
next node, where the node's state may end it at once (stateCheck, whose outcomes EndDispatchHandsWork spells out). The entry
alone leaves its queue unless another now stands earliest at a node whose state ends it (log 26). -/
def Obligations.HostStepTaken : Prop :=
  ∀ (s : State) (l : Fin 4) (slot id node : Nat) (o : StepOutcome) (x : Entry), s.settled →
    s.next? (.controller l) .ring = some (.hostStep slot id node o) → s.ring.entry l id = some x →
    ((s.ring.queue l).map (fun y => y.id)).Nodup →
    let q := s.ring.queue l
    let alone : Prop := ∀ y ∈ q, y.id ≠ id → stateCheck (s.loop l) y = none
    let ends (st d : Nat) (y : Entry) : Prop :=
      ∃ t, exec (.hostRequestCompletion l slot) s = .next t ∧ t.ring.entry l id = none ∧ t.ring.causeDeparture = true ∧
        .slot x.slot ∈ t.reflect.list ∧ .header ∈ t.reflect.list ∧ t.attends .ringDone ∧
        ((∀ z ∈ q, z.id ≠ id → z.slot ≠ x.slot) → t.ring.slot x.slot = y.slotFor st d) ∧
        (alone → t.ring.slot x.slot = y.slotFor st d ∧ t.ring.completed = s.ring.completed + 1 ∧ t.ring.queue l = q.erase x)
    (∀ st d, o = .ended st d → ends st d x) ∧
    ∀ p, o = .done p →
      let y := { x with steps := x.steps + 1, lastDone := x.cur, lastReply := p, inHand := false }
      let z := { y with cur := x.cur + 1 }
      (y.steps = x.count → ends 3 0 y) ∧
      (y.steps ≠ x.count → x.cur = 32 → ends 7 3 y) ∧
      (y.steps ≠ x.count → x.cur ≠ 32 →
        (alone → (stateCheck (s.loop l) z = none) →
          ∃ t, exec (.hostRequestCompletion l slot) s = .next t ∧ t.ring.queue l = q.replace x z ∧
            t.ring.completed = s.ring.completed ∧ t.ring.slots = s.ring.slots) ∧
        ∀ st d, stateCheck (s.loop l) z = some (st, d) → (∀ w ∈ q, w.id ≠ id → w.cur ≠ z.cur) → ends st d z)

/-! ### Events at the units -/

/-- R129, R25, R26, R34, R60, R69, R80, R106, R108, R110: the owner of a node takes its notice. A node that has ceased to be
usable loses what the unit held of it: its bays pass to UNKNOWN, its sign's content is no longer valid, its head starts
anew. One that has become usable is usable again. The fan of a failed node goes to FAULT; its Feedback becomes unknown only
where the node ceases to be usable. -/
def Obligations.NodeNoticeTaken : Prop :=
  ∀ (s : State) (l : Fin 4) (n : Nat) (old new : NodeState) (u : UnitId), ownerOf (s.kindOf l n) = some u →
    s.next? (.controller l) u = some (.nodeNotice n old new) →
    ∃ t, exec (.nodeNotice l n old new) s = .next t ∧
      (nodeUsable old = true → nodeUsable new = false →
        (u = .occupancy → t.occ.node l n = { usable := false, reported := none } ∧ (n, Mark.output) ∈ (t.loop l).order ∧
          ∀ i k, i < 16 → s.occ.bayAt l n i = some k →
            ((s.occ.bay k).state = .disabled ∨ (s.occ.bay k).state = .closed → t.occ.bay k = s.occ.bay k) ∧
            ((s.occ.bay k).state ≠ .disabled → (s.occ.bay k).state ≠ .closed →
              t.occ.bay k =
                { s.occ.bay k with
                  state := .unknown, pend := none, agree := 0
                  lastChange := if (s.occ.bay k).state = .unknown then (s.occ.bay k).lastChange else s.time })) ∧
        (u = .guidance → t.guid.node l n = { usable := false, fault := false } ∧
          ∀ i, let x := (s.guid.sign i).inForce
            x.enabled = true → x.loop = l → x.node = n → (t.guid.sign i).valid = false) ∧
        (u = .lighting → t.light.node l n = { usable := false, lastSet := none } ∧
          (nodeOk n = true → (n, Mark.output) ∈ (t.loop l).order)) ∧
        (u = .air → t.air.head l n = Head.init)) ∧
      (nodeUsable old = false → nodeUsable new = true →
        (u = .occupancy → t.occ.node l n = { s.occ.node l n with usable := true } ∧ t.occ.bays = s.occ.bays) ∧
        (u = .guidance → t.guid.node l n = { s.guid.node l n with usable := true }) ∧
        (u = .lighting → t.light.node l n = { s.light.node l n with usable := true }) ∧
        (u = .air → t.air.head l n = { s.air.head l n with usable := true })) ∧
      (u = .fan → (new = .failed → Tab.get false t.fan.failed (nodeKey l n) = true) ∧
        (old = .failed → new ≠ .failed → Tab.get false t.fan.failed (nodeKey l n) = false) ∧
        ∀ f, s.maps.fanAt l n = some f →
          (t.fan.fan f).feedback =
            (if nodeUsable old = true ∧ nodeUsable new = false then .unknown else (s.fan.fan f).feedback) ∧
          (new = .failed → (s.fan.fan f).state ≠ .isolated → (s.fan.fan f).state ≠ .fault →
            (t.fan.fan f).state = .fault ∧ (t.fan.fan f).cause = .nodeFailed ∧ (t.fan.fan f).command = 0 ∧
              (n, Mark.output) ∈ (t.loop l).order ∧ t.attends .fanFault))

/-- R27 to R36, Table 2.4: a DONE poll of a BAY node: the Output Word becomes the Reported Word, and lamp work is marked when it
differs from the desired lamp word; at the bay of each input a fault gives UNKNOWN, a value that agrees with the state or
disagrees for the first time changes no state, and the second poll in a row of one new value is accepted, with its notices.
The Fault Conditions follow the counts, with a notice of each change. Every notice FREE lost or gained carries the count of its
zone and class as the event has left it by then (R40, R42): of the only bay of its zone on the node, the count after the
event. The bay is found by the unit's Input Map, which a commit
changes only when the unit takes it (R40, log 4). The premise on an input says that this map names its bay at no other. -/
def Obligations.BayPollConfirms : Prop :=
  ∀ (s : State) (l : Fin 4) (n : Nat) (occupancy fault : BitVec 16) (word : Word),
    s.next? (.controller l) .occupancy = some (.bayPoll n occupancy fault word) →
    ∃ t ms, exec (.bayPollReply l n occupancy fault word) s = .next t ∧ (t.occ.node l n).reported = some word ∧
      t.chan = dropMsg (.controller l) .occupancy s.chan ++ ms ∧ s.occ.tells t.occ ms ∧
      (BitVec.truncate 16 word ≠ t.occ.lampWord l n → (n, Mark.output) ∈ (t.loop l).order) ∧
      (∀ z, z < 16 → (t.occ.zone z).fault = decide ((t.occ.zone z).enabled < 4 * (t.occ.zone z).unknown) ∧
        ((t.occ.zone z).fault ≠ (s.occ.zone z).fault →
          { src := .occupancy, dst := .guidance,
            body := if (t.occ.zone z).fault then .faultAsserted z else .faultWithdrawn z } ∈ ms)) ∧
      ∀ i k, i < 16 → s.occ.bayAt l n i = some k → (∀ j, j < 16 → s.occ.bayAt l n j = some k → j = i) →
        let b := s.occ.bay k
        let b' := t.occ.bay k
        let z := b.inForce.zone
        let c := b.inForce.cls
        let v : Sensed := if occupancy.getLsbD i then .occupied else .free
        let told (u : UnitId) (m : Body) : Prop := { src := .occupancy, dst := u, body := m } ∈ ms
        let alone : Prop := ∀ j h, j < 16 → j ≠ i → s.occ.bayAt l n j = some h → (s.occ.bay h).inForce.zone ≠ z
        let lost : Prop := ∃ k, told .guidance (.freeLost z c k) ∧ (alone → k = (t.occ.zone z).free c)
        let gained : Prop := ∃ k, told .guidance (.freeGained z c k) ∧ (alone → k = (t.occ.zone z).free c)
        (b.state = .disabled ∨ b.state = .closed → b' = b) ∧
        (b.state = .unknown ∨ b.state = .free ∨ b.state = .occupied →
          (fault.getLsbD i = true → b'.state = .unknown ∧ b'.pend = none ∧
            (b.state = .free → lost)) ∧
          (fault.getLsbD i = false → b.state = v.state → b' = { b with pend := none, agree := 0 }) ∧
          (fault.getLsbD i = false → b.state ≠ v.state → ¬(b.pend = some v ∧ b.agree = 1) →
            b' = { b with pend := some v, agree := 1 }) ∧
          (fault.getLsbD i = false → b.state ≠ v.state → b.pend = some v → b.agree = 1 →
            b' = { b with state := v.state, pend := none, agree := 0, lastChange := s.time,
                          arrivals := if b.state = .free ∧ v = .occupied then b.arrivals + 1 else b.arrivals } ∧
            (v = .occupied → told .guidance (.occupiedAccepted z)) ∧
            (v = .free → gained) ∧ (b.state = .free → lost) ∧
            (b.state ≠ .unknown → told .air (.traffic z) ∧
              (b.inForce.channel ≠ 255 → told .lighting (.presence b.inForce.channel)))))

/-- R36, R59, R61, R70 to R73: the replies of BAY outputs, LIGHT and SIGN nodes at their units. -/
def Obligations.OutputRepliesTaken : Prop :=
  ∀ (s : State) (l : Fin 4) (n : Nat) (status : Byte),
    (∀ word, s.next? (.controller l) .occupancy = some (.modify n status word) →
      ∃ t, exec (.modifyReply l n status word) s = .next t ∧ t.occ.bays = s.occ.bays ∧
        (t.occ.node l n).reported = (if status = 0 then some word else (s.occ.node l n).reported) ∧
        (status = 0 → BitVec.truncate 16 word ≠ s.occ.lampWord l n → (n, Mark.output) ∈ (t.loop l).order) ∧
        (status ≠ 0 → t.loops = s.loops)) ∧
    (∀ levels, s.next? (.controller l) .lighting = some (.lightSet n status levels) →
      ∃ t, exec (.lightSetCompletion l n status levels) s = .next t ∧
        (t.light.node l n).lastSet = (if status = 0 then some levels else (s.light.node l n).lastSet) ∧
        (nodeOk n = true → status = 0 → levels ≠ t.light.desired s.maps l n → (n, Mark.output) ∈ (t.loop l).order) ∧
        (status ≠ 0 → t.loops = s.loops)) ∧
    (∀ levels, s.next? (.controller l) .lighting = some (.lightPoll n levels) →
      ∃ t, exec (.lightPollReply l n levels) s = .next t ∧
        (t.light.node l n).lastSet = (if (s.light.node l n).lastSet = some levels then some levels else none) ∧
        (nodeOk n = true → (t.light.node l n).lastSet ≠ some (t.light.desired s.maps l n) →
          (n, Mark.output) ∈ (t.loop l).order)) ∧
    (∀ flags, s.next? (.controller l) .guidance = some (.signPoll n flags) →
      ∃ t, exec (.signPollReply l n flags) s = .next t ∧ (t.guid.node l n).fault = flags.getLsbD 0 ∧
        ((s.guid.node l n).fault = true → flags.getLsbD 0 = false →
          ∀ i, let x := (s.guid.sign i).inForce
            x.enabled = true → x.loop = l → x.node = n → (t.guid.sign i).valid = false)) ∧
    ∀ content, s.next? (.controller l) .guidance = some (.showDone n status content) →
      ∃ t, exec (.showCompletion l n status content) s = .next t ∧ ∀ i, s.maps.signAt l n = some i →
        (t.guid.sign i).refresh = some (s.clock + 1000 * s.cfg.params.signInterval) ∧
        (status = 0 → (t.guid.sign i).shown = shownOf content ∧ (t.guid.sign i).valid = true ∧
          (t.guid.sign i).lastShow = s.time) ∧
        (status ≠ 0 → (t.guid.sign i).shown = (s.guid.sign i).shown ∧ (t.guid.sign i).valid = (s.guid.sign i).valid)

/-- R56, R57, R58: the computed content of a sign's line, the Sign Status, and the SHOW test: after every event that changes
the Guidance Unit, and after every sign node event, each sign that asks for a SHOW has its node's mark set. Of the reading of
the image, which happens in LOADING alone, it is said where no SIGN record in force is enabled there, as every step keeps it
(ListsAndBoundsKept). -/
def Obligations.SignsShown : Prop :=
  (∀ (u : Guid) (x : SignLine),
    let zs := (List.range 16).filter (fun z => x.mask.getLsbD z)
    let sum := (zs.map (fun z =>
      if x.cls = 0 then (u.zone z).general - (u.zone z).holds else (u.zone z).free x.cls)).sum
    (zs = [] → lineContent u x = { value := 0, arrow := 0, text := 3 }) ∧
    (zs ≠ [] → (∀ z ∈ zs, (u.zone z).gstate = .closed) → lineContent u x = { value := 0, arrow := x.arrow, text := 2 }) ∧
    ((∃ z ∈ zs, (u.zone z).gstate ≠ .closed) →
      lineContent u x = { value := sum, arrow := x.arrow, text := if sum = 0 then 1 else 0 })) ∧
  (∀ (u : Guid) (r : SignRec), (r.mode = 0 → signContent u r = r.lines.map (lineContent u)) ∧
    (r.mode = 2 → signContent u r = r.lines.map (fun _ => { value := 0, arrow := 0, text := 3 }))) ∧
  (∀ (u : Guid) (g : GSign),
    let r := g.inForce
    let nd := u.node r.loop r.node
    (r.enabled = false → signStatus u g = .ok) ∧
    (r.enabled = true → (nd.usable = false ∨ nd.fault = true) → signStatus u g = .failed) ∧
    (r.enabled = true → nd.usable = true → nd.fault = false →
      ((r.mode = 0 ∨ r.mode = 2) → (g.valid = true ∧ g.shown = signContent u r → signStatus u g = .ok) ∧
        (¬(g.valid = true ∧ g.shown = signContent u r) → signStatus u g = .pending)) ∧
      (r.mode = 1 → signStatus u g = .ok))) ∧
  (∀ (s t : State) (c : Instr), exec c s = .next t → t.guid ≠ s.guid →
    ((∃ st, c = .configurationRead st) → s.loadingQuiet) → t.showMarked) ∧
  ∀ (s : State) (l : Fin 4) (n : Nat),
    (∀ flags, s.next? (.controller l) .guidance = some (.signPoll n flags) →
      ∃ t, exec (.signPollReply l n flags) s = .next t ∧ t.showMarked) ∧
    (∀ status content, s.next? (.controller l) .guidance = some (.showDone n status content) →
      ∃ t, exec (.showCompletion l n status content) s = .next t ∧ t.showMarked) ∧
    ∀ i, s.due (s.guid.sign i).refresh = true → ∃ t, exec (.refreshTimerExpiry i) s = .next t ∧ t.showMarked

/-- R79: a DONE poll of a GAS node. A change of Zeroing clears the ring and stops the timer; the flags are taken; a reply with
the three flags clear that ends no zeroing adds its sample, the ring keeping the last eight, and restarts the timer. -/
def Obligations.GasPollTaken : Prop :=
  ∀ (s : State) (l : Fin 4) (n co no2 : Nat) (flags : Byte),
    s.next? (.controller l) .air = some (.gasPoll n co no2 flags) →
    let h := s.air.head l n
    ∃ t, exec (.gasPollReply l n co no2 flags) s = .next t ∧
      let h' := t.air.head l n
      h'.fault = flags.getLsbD 0 ∧ h'.zeroing = flags.getLsbD 1 ∧ h'.zeroFailed = flags.getLsbD 2 ∧ h'.usable = h.usable ∧
      (flags.getLsbD 1 ≠ h.zeroing → h'.ring = [] ∧ h'.fresh = none) ∧
      (flags.getLsbD 1 = h.zeroing → (flags.getLsbD 0 || flags.getLsbD 1 || flags.getLsbD 2) = true →
        h'.ring = h.ring ∧ h'.fresh = h.fresh) ∧
      (flags.getLsbD 1 = h.zeroing → (flags.getLsbD 0 || flags.getLsbD 1 || flags.getLsbD 2) = false →
        h'.ring = h.ring.drop (h.ring.length - 7) ++ [(co, no2)] ∧
        h'.fresh = some (s.clock + 1000 * (3 * s.cfg.params.gasPoll))) ∧
      (flags.getLsbD 2 = true → h.zeroFailed = false → t.attends .gasUnknown)

/-- R82 to R88 and R97: at an event of a head every enabled zone that includes it is evaluated: its values, levels, latch and
Gas Demand from its valid heads, its Fail and Traffic Demands and D, then its Applied Stage (State.stageRuled, Safety.lean); no
other zone changes. The first clauses say what a level, the Purge Latch and the demands are. -/
def Obligations.ZonesFollowHeads : Prop :=
  (∀ value r1 r2 r3 margin held : Nat,
    let k := levelFor value r1 r2 r3 margin held
    let reached (j : Nat) : Prop :=
      let rise := if j = 3 then r3 else if j = 2 then r2 else r1
      rise ≤ value ∨ (j ≤ held ∧ rise - margin ≤ value)
    k ≤ 3 ∧ (k ≠ 0 → reached k) ∧ ∀ j, k < j → j ≤ 3 → ¬reached j) ∧
  (∀ (r : ZoneRec) (hs : List Head) (held : Bool), purgeFor r hs held = true ↔
    (∃ h ∈ hs, r.coPurge ≤ h.newest) ∨ (held = true ∧ ∃ h ∈ hs, r.coPurge - r.coMargin ≤ h.newest)) ∧
  (∀ (u : Air) (x : AZone),
    let r := x.inForce
    let hs := validHeads u r
    let y := gasOf u x
    (y.noHeads = true ↔ headsOf r = []) ∧ (y.gasUnknown = true ↔ headsOf r ≠ [] ∧ hs = []) ∧
    (hs = [] → y.co = 0 ∧ y.no2 = 0 ∧ y.coLevel = 0 ∧ y.no2Level = 0 ∧ y.purge = false ∧ y.gasDemand = 0) ∧
    (hs ≠ [] → y.co = (hs.map Head.coMean).foldl max 0 ∧ y.no2 = (hs.map Head.no2Mean).foldl max 0 ∧
      y.coLevel = levelFor y.co r.co1 r.co2 r.co3 r.coMargin x.coLevel ∧
      y.no2Level = levelFor y.no2 r.no21 r.no22 r.no23 r.no2Margin x.no2Level ∧ y.purge = purgeFor r hs x.purge ∧
      y.gasDemand = (if y.purge then 4 else max y.coLevel y.no2Level)) ∧
    (demandOf x).failDemand = (if x.gasUnknown then 2 else 0) ∧
    (demandOf x).trafficDemand = (if r.enabled = true ∧ r.trafficHold ≠ 0 then
      (if 0 < x.queue then 2 else if x.trafficTimer.isSome then 1 else 0) else 0) ∧
    (demandOf x).demand = max x.gasDemand (max (demandOf x).failDemand
      (max (min (demandOf x).trafficDemand r.ceiling) r.floor))) ∧
  ∀ (s : State) (l : Fin 4) (n : Nat),
    let evaluated (t : State) : Prop := ∀ z,
      let x := s.air.zone z
      let y := t.air.zone z
      (z ∉ zonesOfHead s.air l n → y = x) ∧
      (z ∈ zonesOfHead s.air l n →
        { y with stage := x.stage, since := x.since, holdDown := x.holdDown } = demandOf (gasOf t.air x) ∧
        (y.gasUnknown = true → x.gasUnknown = false → t.attends .gasUnknown) ∧
        s.stageRuled t z x.inForce)
    (∀ co no2 flags, s.next? (.controller l) .air = some (.gasPoll n co no2 flags) →
      ∃ t, exec (.gasPollReply l n co no2 flags) s = .next t ∧ evaluated t) ∧
    (∀ old new, ownerOf (s.kindOf l n) = some .air → s.next? (.controller l) .air = some (.nodeNotice n old new) →
      nodeUsable old ≠ nodeUsable new → ∃ t, exec (.nodeNotice l n old new) s = .next t ∧ evaluated t) ∧
    (s.due (s.air.head l n).fresh = true → ∃ t, exec (.freshnessTimerExpiry l n) s = .next t ∧ evaluated t)

/-- R105 to R110, R112, R122: the replies of FAN nodes and the feedback notices of the Terminal Block. A reply is taken at the
enabled fan that the fan node map names. A drive fault takes a fan that is STOPPED, QUEUED, STARTING or RUNNING to FAULT
(log 31: it is taken before the reply's running flag), and no other fan; without one, and at those others, the reply is an
observation of Feedback, by the fan's state (State.observed, Safety.lean). So is a feedback notice of a level, which counts no
poll that finds a RUNNING fan stopped. The premise is law 6 (FanLawsKept). -/
def Obligations.FanRepliesTaken : Prop :=
  ∀ s : State,
    (∀ (l : Fin 4) (n speed f : Nat) (flags : Byte), s.fan.queueOk = true →
      s.next? (.controller l) .fan = some (.fanPoll n flags speed) →
      s.maps.fanAt l n = some f → (s.fan.fan f).inForce.enabled = true →
      let x := s.fan.fan f
      let running : Bool := match x.termFb with | none => flags.getLsbD 0 | some p => p.2
      ∃ t, exec (.fanPollReply l n flags speed) s = .next t ∧
        let y := t.fan.fan f
        let still : Prop := x.state = .stopping ∨ x.state = .fault ∨ x.state = .isolated
        y.reported = speed ∧ y.feedback = (if running then .running else .stopped) ∧ y.wanted = t.fan.wants s.maps f ∧
        (flags.getLsbD 1 = true → (x.state = .stopped ∨ x.state = .queued ∨ x.state = .starting ∨ x.state = .running) →
          y.state = .fault ∧ y.cause = .driveFault ∧ y.command = 0 ∧ (n, Mark.output) ∈ (t.loop l).order ∧
            t.attends .fanFault) ∧
        (flags.getLsbD 1 = false ∨ still → s.observed f running t) ∧
        (still → (t.attends .fanFault ↔ s.attends .fanFault)) ∧
        (flags.getLsbD 1 = false →
          (running = true → x.state = .running → (y.wanted = true → y.notRunning = 0)) ∧
          (running = false → x.state = .running → x.notRunning = 0 → y.notRunning = 1 ∧
            (y.wanted = true → y.state = .running) ∧ (y.wanted = false → y.state = .stopping)) ∧
          (running = false → x.state = .running → x.notRunning ≠ 0 →
            y.state = .fault ∧ y.cause = .runLost ∧ y.command = 0 ∧ (n, Mark.output) ∈ (t.loop l).order ∧
              t.attends .fanFault))) ∧
    (∀ (l : Fin 4) (n : Nat) (status : Byte), s.next? (.controller l) .fan = some (.fanSet n status) →
      ∃ t, exec (.fanSetCompletion l n status) s = .next t ∧ ∀ f, (t.fan.fan f).reported = (s.fan.fan f).reported ∧
        (t.fan.fan f).feedback = (s.fan.fan f).feedback ∧ (t.fan.fan f).cause = (s.fan.fan f).cause) ∧
    ∀ (f : Nat) (k : Fin 16) (level : Option Bool), s.next? .terminal .fan = some (.feedback f k level) →
      ∃ t, exec (.feedbackNotice f k level) s = .next t ∧
        (∀ on, level = some on → (t.fan.fan f).termFb = some (k.val, on) ∧
          ((s.fan.fan f).inForce.enabled = true →
            (t.fan.fan f).feedback = (if on then .running else .stopped) ∧ (t.fan.fan f).wanted = t.fan.wants s.maps f ∧
            (s.fan.queueOk = true → s.observed f on t ∧ (t.attends .fanFault ↔ s.attends .fanFault) ∧
              (on = false → (s.fan.fan f).state = .running → (t.fan.fan f).notRunning = (s.fan.fan f).notRunning ∧
                ((t.fan.fan f).wanted = true → (t.fan.fan f).state = .running) ∧
                ((t.fan.fan f).wanted = false → (t.fan.fan f).state = .stopping))))) ∧
        (level = none → (∀ on, (s.fan.fan f).termFb = some (k.val, on) → (t.fan.fan f).termFb = none) ∧
          (∀ j on, (s.fan.fan f).termFb = some (j, on) → j ≠ k.val → (t.fan.fan f).termFb = some (j, on)))

/-- R100 to R103: what the Wanted of a fan is. The rotated order runs from the Lead Position round; the demand follows the
Group Stage and the override; the wanted set is the first n available fans of that order, and a fan is Wanted when it
belongs to the wanted set of the group that the fan-to-group map names. Every event that changes the Fan Unit leaves every
fan's Wanted so. -/
def Obligations.WantedSetsFollow : Prop :=
  (∀ (u : Fan) (x : GroupU),
    let d := x.inForce.duty.filter (fun f => decide (f ≠ 255))
    let p := x.inForce.pattern.getD x.stage (0, 0)
    (∀ k, k < d.length → (rotated x).length = d.length ∧ (x.lead < d.length →
      (rotated x)[k]? = d[if x.lead + k < d.length then x.lead + k else x.lead + k - d.length]?)) ∧
    u.wantedSet x = ((rotated x).filter u.available).take (u.demand x).1 ∧
    (x.inForce.enabled = false → u.demand x = (0, 0)) ∧
    (x.inForce.enabled = true → u.override = .active → x.inForce.action = 0 → u.demand x = (0, 0)) ∧
    (x.inForce.enabled = true → u.override = .active → x.inForce.action = 1 → u.demand x = (d.length, 100)) ∧
    (x.inForce.enabled = true → (u.override ≠ .active ∨ x.inForce.action = 2) →
      u.demand x = (if p.2 = 0 then (0, 0) else p))) ∧
  (∀ (u : Fan) (r : GroupRec),
    (r.enabled = false → u.stageFor r = 0) ∧
    (r.enabled = true → (∀ z, z < 16 → r.zoneSet.getLsbD z = true → Tab.get 0 u.stages z ≤ u.stageFor r) ∧
      (u.stageFor r = 0 ∨ ∃ z, z < 16 ∧ r.zoneSet.getLsbD z = true ∧ Tab.get 0 u.stages z = u.stageFor r))) ∧
  (∀ (u : Fan) (f : Nat), u.available f = true ↔
    (u.fan f).inForce.enabled = true ∧ (u.fan f).inForce.isolate = false ∧ (u.fan f).state ≠ .fault ∧
      (u.fan f).state ≠ .isolated ∧ Tab.get false u.failed (nodeKey (u.fan f).inForce.loop (u.fan f).inForce.node) = false) ∧
  (∀ (u : Fan) (m : Maps) (f : Nat), u.wants m f = true ↔ ∃ g, m.groupOf f = some g ∧ f ∈ u.wantedSet (u.group g)) ∧
  (∀ (s t : State) (c : Instr), exec c s = .next t → t.fan ≠ s.fan → ∀ f, (t.fan.fan f).wanted = t.fan.wants t.maps f) ∧
  ∀ (s : State) (z k : Nat), s.next? .air .fan = some (.stage z k) → ∃ t, exec (.stageNotice .fan z k) s = .next t ∧
    Tab.get 0 t.fan.stages z = k ∧ (∀ y, y ≠ z → Tab.get 0 t.fan.stages y = Tab.get 0 s.fan.stages y) ∧
    (∀ f, (t.fan.fan f).wanted = t.fan.wants s.maps f) ∧
    ∀ g, let x := s.fan.group g
      let y := t.fan.group g
      y.inForce = x.inForce ∧ y.stage = t.fan.stageFor x.inForce ∧
        y.lead = (if 0 < x.stage ∧ y.stage = 0 then
          (if x.lead + 1 < (dutySeq x.inForce).length then x.lead + 1 else 0) else x.lead) ∧
        (y.short = true → x.short = false → t.attends .groupShort)

/-- R42, R43, R53: the notices of the Occupancy Unit. The free copy takes the count carried; a loss of GENERAL bays leaves no
more holds than free GENERAL bays: the newest of the zone end, only as many as are needed and newest first, and their route
counts are lowered; any other loss, and a gain, ends none. The FAULT reason follows its notices, and no other reason
changes. The premises are laws of the unit (GuidanceLawsKept): H counts the zone's holds, and the Guidance State is the
one that its reasons and counts give. -/
def Obligations.FreeAndFaultNotices : Prop :=
  ∀ (s : State) (z c count : Nat), c < 3 →
    let x := s.guid.zone z
    let mine (h : Hold) : Bool := decide (h.zone = z)
    (s.next? .occupancy .guidance = some (.freeLost z c count) → ∃ t, exec (.freeLost z c count) s = .next t ∧
      (t.guid.zone z).free c = count ∧ (t.guid.zone z).reasons = (s.guid.zone z).reasons ∧
      (c = 0 → x.holds = (s.guid.holds.filter mine).length → (t.guid.zone z).holds ≤ count) ∧
      (c ≠ 0 → x.gstate = x.state → t.guid.holds = s.guid.holds ∧ (t.guid.zone z).holds = x.holds) ∧
      (c = 0 → x.holds = (s.guid.holds.filter mine).length → x.gstate = x.state →
        (t.guid.zone z).holds = min x.holds count ∧ t.guid.holds.Sublist s.guid.holds ∧
        t.guid.holds.filter (fun h => !mine h) = s.guid.holds.filter (fun h => !mine h) ∧
        t.guid.holds.filter mine = (s.guid.holds.filter mine).take count ∧
        ∃ ms, t.chan = dropMsg .occupancy .guidance s.chan ++
            (((s.guid.holds.filter mine).drop count).reverse.flatMap (fun h => h.route)).map
              (fun ch => { src := .guidance, dst := .lighting, body := .routeLowered ch }) ++ ms ∧
          ∀ m ∈ ms, m.dst = .terminal)) ∧
    (s.next? .occupancy .guidance = some (.freeGained z c count) → ∃ t, exec (.freeGained z c count) s = .next t ∧
      (t.guid.zone z).free c = count ∧ (t.guid.zone z).reasons = (s.guid.zone z).reasons ∧
      (x.gstate = x.state → t.guid.holds = s.guid.holds ∧ (t.guid.zone z).holds = x.holds)) ∧
    (s.next? .occupancy .guidance = some (.faultAsserted z) → ∃ t, exec (.faultAsserted z) s = .next t ∧
      (t.guid.zone z).reasons = { (s.guid.zone z).reasons with fault := true }) ∧
    (s.next? .occupancy .guidance = some (.faultWithdrawn z) → ∃ t, exec (.faultWithdrawn z) s = .next t ∧
      (t.guid.zone z).reasons = { (s.guid.zone z).reasons with fault := false })

/-- R51, with R50 and R52: an acceptance of OCCUPIED ends the oldest hold of its zone, if there is one, and an expiry the hold
at its place; the hold leaves the list, H falls, the ZONE record joins the Reflect List and the route counts are lowered in
Route order. The premise is R45's own (see GuidanceLawsKept): the Guidance State of the zone is the one that its reasons and
counts give. -/
def Obligations.HoldEnds : Prop :=
  (∀ (s : State) (z : Nat), oldestOf s.guid.holds z = none →
    s.next? .occupancy .guidance = some (.occupiedAccepted z) →
    ∃ t, exec (.occupiedAccepted z) s = .next t ∧ t.guid.holds = s.guid.holds) ∧
  ∀ (s : State) (k : Nat) (h : Hold), s.guid.holds[k]? = some h →
    (s.guid.zone h.zone).gstate = (s.guid.zone h.zone).state →
    let ended (t : State) (rest : List Msg) : Prop :=
      t.guid.holds = s.guid.holds.eraseIdx k ∧ (t.guid.zone h.zone).holds = (s.guid.zone h.zone).holds - 1 ∧
        .record .zone h.zone ∈ t.reflect.list ∧ ∃ ms, t.chan = rest ++
          h.route.map (fun ch => { src := .guidance, dst := .lighting, body := .routeLowered ch }) ++ ms ∧
          ∀ m ∈ ms, m.dst = .terminal
    (oldestOf s.guid.holds h.zone = some k → s.next? .occupancy .guidance = some (.occupiedAccepted h.zone) →
      ∃ t, exec (.occupiedAccepted h.zone) s = .next t ∧ ended t (dropMsg .occupancy .guidance s.chan)) ∧
    (h.expiry ≤ s.secs → ∃ t, exec (.holdExpiry k) s = .next t ∧ ended t s.chan)

/-- R47, R48, R49: the events of a gate. An entry counts, sends traffic for the Gate Zone, and makes a hold in the first
preference that can be the target, or counts Unguided; an exit counts and sends traffic; a queue notice sets QUEUE and passes a
change of it to the Air Unit; a disabled gate discards each. The target is the lowest position whose zone is OPEN with more
unclaimed bays than the Margin; the Route is the position's entries but 255, each channel at its first appearance, and
raises the count of each in that order. The premise on the target zone is R45's own. -/
def Obligations.GateEventsTaken : Prop :=
  (∀ (u : Guid) (r : GateRec),
    let ok (p : Nat) : Prop := ∃ z, r.pref[p]? = some z ∧ z ≠ 255 ∧ (u.zone z).gstate = .opened ∧
      r.margin < (u.zone z).general - (u.zone z).holds
    (∀ p, findTarget u r = some p ↔ ok p ∧ ∀ q, q < p → ¬ok q) ∧ (findTarget u r = none ↔ ∀ p, ¬ok p)) ∧
  (routeOf [] = [] ∧ ∀ (js : List Nat) (ch : Nat),
    routeOf (js ++ [ch]) = if ch = 255 ∨ ch ∈ js then routeOf js else routeOf js ++ [ch]) ∧
  ∀ (s : State) (g : Nat),
    let x := s.guid.gate g
    let traffic (t : State) : Prop := ∃ ms, t.chan = dropMsg .terminal .guidance s.chan ++
      { src := .guidance, dst := .air, body := .traffic x.inForce.zone } :: ms
    (s.next? .terminal .guidance = some (.entry g) →
      (x.inForce.enabled = false → exec (.entryEvent g) s = .next (s.taken .terminal .guidance)) ∧
      (x.inForce.enabled = true → (findTarget s.guid x.inForce = none ∨ 64 ≤ s.guid.holds.length) →
        ∃ t, exec (.entryEvent g) s = .next t ∧ traffic t ∧ (t.guid.gate g).entries = x.entries + 1 ∧
          (t.guid.gate g).unguided = x.unguided + 1 ∧ (t.guid.gate g).lastTarget = 255 ∧ t.guid.holds = s.guid.holds ∧
          t.attends .unguided) ∧
      ∀ p, x.inForce.enabled = true → findTarget s.guid x.inForce = some p → s.guid.holds.length < 64 →
        let z := x.inForce.pref.getD p 255
        (s.guid.zone z).gstate = (s.guid.zone z).state →
        ∃ t, exec (.entryEvent g) s = .next t ∧ traffic t ∧ (t.guid.gate g).entries = x.entries + 1 ∧
          (t.guid.gate g).unguided = x.unguided ∧ (t.guid.gate g).lastTarget = z ∧ t.guid.nextId = s.guid.nextId + 1 ∧
          (t.guid.zone z).holds = (s.guid.zone z).holds + 1 ∧
          t.guid.holds = s.guid.holds ++
            [{ id := s.guid.nextId, gate := g, zone := z, position := p, route := routeOf (x.inForce.routes.getD p []),
               created := s.time, expiry := s.secs + x.inForce.expiry }] ∧
          .record .gate g ∈ t.reflect.list ∧ .record .zone z ∈ t.reflect.list ∧
          ∃ ms, t.chan = dropMsg .terminal .guidance s.chan ++
            { src := .guidance, dst := .air, body := .traffic x.inForce.zone } ::
              (routeOf (x.inForce.routes.getD p [])).map
                (fun ch => { src := .guidance, dst := .lighting, body := .routeRaised ch }) ++ ms ∧
            ∀ m ∈ ms, m.dst = .terminal) ∧
    (s.next? .terminal .guidance = some (.exit g) →
      (x.inForce.enabled = false → exec (.exitEvent g) s = .next (s.taken .terminal .guidance)) ∧
      (x.inForce.enabled = true → ∃ t, exec (.exitEvent g) s = .next t ∧ (t.guid.gate g).exits = x.exits + 1 ∧
        t.guid.holds = s.guid.holds ∧ traffic t)) ∧
    ∀ raised, s.next? .terminal .guidance = some (.gateQueue g raised) →
      (x.inForce.enabled = false → exec (.gateQueueNotice g raised) s = .next (s.taken .terminal .guidance)) ∧
      (x.inForce.enabled = true → ∃ t ms, exec (.gateQueueNotice g raised) s = .next t ∧ (t.guid.gate g).queue = raised ∧
        .record .gate g ∈ t.reflect.list ∧
        t.chan = dropMsg .terminal .guidance s.chan ++ (if raised = x.queue then [] else
          [{ src := .guidance, dst := .air,
             body := if raised then .queueRaised x.inForce.zone else .queueWithdrawn x.inForce.zone }]) ++ ms ∧
        ∀ m ∈ ms, m.dst = .terminal)

/-- R66, R67, R86, R43, R44, R68, R70, R90, R100, R116, R123: presence and route notices at the Lighting Unit, traffic and queue
notices at the Air Unit; the notices of stages, of the override, of FULL and of the alarm are taken into the copies of the
units they go to. After each of those at the Lighting Unit the nodes whose desired levels it has changed are compared with
their Last Set (State.lightMarked, Safety.lean). There a stage notice may come before a waiting override notice of the end of
CLEARING, and the two give every channel the same in either order. -/
def Obligations.NoticesTaken : Prop :=
  (∀ (s : State) (ch z : Nat),
    let x := s.light.chan ch
    let y := s.air.zone z
    (s.next? .occupancy .lighting = some (.presence ch) →
      (x.inForce.enabled = true → ∃ t, exec (.presence ch) s = .next t ∧
        (t.light.chan ch).timer = some (s.clock + 1000 * x.inForce.hold) ∧ s.lightMarked t []) ∧
      (x.inForce.enabled = false → exec (.presence ch) s = .next (s.taken .occupancy .lighting))) ∧
    (s.next? .guidance .lighting = some (.routeRaised ch) → ∃ t, exec (.routeCountRaised ch) s = .next t ∧
      (t.light.chan ch).routes = x.routes + 1 ∧ .record .channel ch ∈ t.reflect.list ∧ s.lightMarked t []) ∧
    (s.next? .guidance .lighting = some (.routeLowered ch) → ∃ t, exec (.routeCountLowered ch) s = .next t ∧
      (t.light.chan ch).routes = x.routes - 1 ∧ .record .channel ch ∈ t.reflect.list ∧ s.lightMarked t []) ∧
    (∀ src, s.next? src .air = some (.traffic z) →
      (y.inForce.enabled = true → y.inForce.trafficHold ≠ 0 → ∃ t, exec (.traffic src z) s = .next t ∧
        (t.air.zone z).trafficTimer = some (s.clock + 1000 * (5 * y.inForce.trafficHold))) ∧
      ((y.inForce.enabled = false ∨ y.inForce.trafficHold = 0) →
        exec (.traffic src z) s = .next (s.taken src .air))) ∧
    (s.next? .guidance .air = some (.queueRaised z) → ∃ t, exec (.queueRaised z) s = .next t ∧
      (t.air.zone z).queue = y.queue + 1) ∧
    (s.next? .guidance .air = some (.queueWithdrawn z) → ∃ t, exec (.queueWithdrawn z) s = .next t ∧
      (t.air.zone z).queue = y.queue - 1)) ∧
  ∀ s : State,
    (∀ u z k, s.nextPast? (letsPass u) .air u = some (.stage z k) → ∃ t, exec (.stageNotice u z k) s = .next t ∧
      (u = .guidance → (t.guid.zone z).reasons = { (s.guid.zone z).reasons with air := decide (k = 4) }) ∧
      (u = .lighting → t.light.stage z = k ∧ (∀ y, y ≠ z → t.light.stage y = s.light.stage y) ∧ s.lightMarked t []) ∧
      (u = .terminal → Tab.get 0 t.term.stages z = k ∧
        ∀ y, y ≠ z → Tab.get 0 t.term.stages y = Tab.get 0 s.term.stages y)) ∧
    (∀ u o stages, s.next? .air u = some (.override o stages) → ∃ t, exec (.overrideNotice u o) s = .next t ∧
      (u = .guidance → ∀ z, z < s.count .zone → (t.guid.zone z).reasons.override = decide (o = .active) ∧
        (o = .clearing → (t.guid.zone z).reasons.air = decide (stages.getD z 0 = 4)) ∧
        (o ≠ .clearing → (t.guid.zone z).reasons.air = (s.guid.zone z).reasons.air)) ∧
      (u = .lighting → t.light.override = o ∧ s.lightMarked t []) ∧ (u = .fan → t.fan.override = o) ∧
      (u = .terminal → t.term.override = o) ∧
      (u = .fan → o = .normal → ∀ e ∈ s.fan.queue, ∀ m, (e.1, m) ∈ t.fan.queue → m = false)) ∧
    (∀ g raised, s.next? .guidance .terminal = some (.gateFull g raised) →
      ∃ t, exec (.gateFullNotice g raised) s = .next t ∧ Tab.get false t.term.full g = raised) ∧
    (∀ raised, s.next? .air .terminal = some (.alarm raised) →
      ∃ t, exec (.alarmNotice raised) s = .next t ∧ t.term.alarm = raised) ∧
    (∀ u ms z k, s.chan = ms ++ [{ src := .air, dst := u, body := .stage z k }] →
      (∀ m ∈ ms, m.src = .air → m.dst = u → u = .lighting ∧ ∃ stages, m.body = .override .normal stages) →
      s.nextPast? (letsPass u) .air u = some (.stage z k)) ∧
    ∀ z k stages, s.next? .air .lighting = some (.override .normal stages) →
      s.nextPast? (letsPass .lighting) .air .lighting = some (.stage z k) →
      ∃ t1 t2 u1 u2, exec (.overrideNotice .lighting .normal) s = .next t1 ∧ exec (.stageNotice .lighting z k) t1 = .next t2 ∧
        exec (.stageNotice .lighting z k) s = .next u1 ∧ exec (.overrideNotice .lighting .normal) u1 = .next u2 ∧
        t2.chan = u2.chan ∧ ∀ i, t2.light.chan i = u2.light.chan i

/-- R90 (Table 5.3), with R87 to R89 and R91 to R94: the passages of the Override State, each with its override notices; a notice
that leaves the smoke copy as it was changes no state. What the unit sends to each of the four units is said whole and in its
order: the notice of CLEARING to Guidance carries the Applied Stages as they then stand, and no stage notice goes there beside
it. Each change of an Applied Stage is dated, sets STAGE and lists its ZONE record; a disabled zone stays as it was. -/
def Obligations.SmokeOverridePasses : Prop :=
  ∀ s : State,
    let to_ (u : UnitId) (ms : List Msg) : List Body :=
      (ms.filter (fun m => decide (m.src = .air ∧ m.dst = u))).map (fun m => m.body)
    let changed (t : State) : List Body :=
      ((List.range 16).filter (fun z => decide ((t.air.zone z).stage ≠ (s.air.zone z).stage))).map
        (fun z => .stage z (t.air.zone z).stage)
    let alarm (t : State) : List Body := if t.air.alarm = s.air.alarm then [] else [.alarm t.air.alarm]
    let told (t : State) (rest : List Msg) (guidance others : List Body) : Prop :=
      to_ .guidance t.chan = to_ .guidance rest ++ guidance ∧ to_ .lighting t.chan = to_ .lighting rest ++ others ∧
        to_ .fan t.chan = to_ .fan rest ++ others ∧ to_ .terminal t.chan = to_ .terminal rest ++ others ++ alarm t
    let dated (t : State) : Prop := ∀ z, z < 16 →
      let x := s.air.zone z
      let y := t.air.zone z
      (x.inForce.enabled = false → y = x) ∧ y.demand = x.demand ∧ (y.stage = x.stage → y.since = x.since) ∧
        (y.stage ≠ x.stage → y.since = s.time ∧ t.attends .stage ∧ .record .zone z ∈ t.reflect.list)
    let taken : List Msg := dropMsg .terminal .air s.chan
    let hard (t : State) (b : Bool) : Prop :=
      t.guard.hardZone = b ∧ t.guard.hardGroup = b ∧ t.guard.hardFan = b ∧ t.guard.locks = s.guard.locks
    (s.next? .terminal .air = some (.smoke true) → s.air.smoke = false →
      (s.air.override = .normal → ∃ t, exec .smokeActive s = .next t ∧ t.air.override = .active ∧ t.air.smoke = true ∧
        hard t true ∧ t.attends .override ∧ t.air.alarm = true ∧ told t taken [.override .active []] [.override .active []] ∧
        ∀ z, t.air.zone z = s.air.zone z) ∧
      (s.air.override = .clearing → ∃ t, exec .smokeActive s = .next t ∧ t.air.override = .active ∧ t.air.smoke = true ∧
        t.air.purgeTimer = none ∧ t.attends .override ∧ t.guard = s.guard ∧ t.air.alarm = true ∧
        told t taken (.override .active [] :: changed t) (.override .active [] :: changed t) ∧ dated t ∧
        ∀ z, z < 16 → (s.air.zone z).inForce.enabled = true →
          let x := s.air.zone z
          let y := t.air.zone z
          (x.stage ≤ x.demand → y.stage = x.demand ∧ y.holdDown = none) ∧
          (x.demand < x.stage → y.stage = x.stage ∧ y.holdDown = (if x.holdDown.isSome then x.holdDown else
            some (s.clock + 1000 * (if x.inForce.holdDown = 0 then 1800 else 15 * x.inForce.holdDown)))))) ∧
    (s.next? .terminal .air = some (.smoke false) → s.air.smoke = true → s.air.override = .active →
      ∃ t, exec .smokeInactive s = .next t ∧ t.air.override = .clearing ∧ t.air.smoke = false ∧ t.guard = s.guard ∧
        told t taken [.override .clearing ((List.range 16).map (fun z => (t.air.zone z).stage))]
          (changed t ++ [.override .clearing []]) ∧ dated t ∧
        t.air.purgeTimer = some (s.clock + 1000 * s.cfg.params.purgePeriod) ∧
        ∀ z, z < 16 → (s.air.zone z).inForce.enabled = true →
          (t.air.zone z).stage = 4 ∧ (t.air.zone z).holdDown = none) ∧
    (s.due s.air.purgeTimer = true → s.air.override = .clearing →
      ∃ t, exec .purgeTimerExpiry s = .next t ∧ t.air.override = .normal ∧ t.air.purgeTimer = none ∧ hard t false ∧
        told t s.chan (.override .normal [] :: changed t) (.override .normal [] :: changed t) ∧ dated t ∧
        ∀ z, z < 16 → (s.air.zone z).inForce.enabled = true →
          (t.air.zone z).stage = (s.air.zone z).demand ∧ (t.air.zone z).holdDown = none) ∧
    (∀ on, s.next? .terminal .air = some (.smoke on) → s.air.smoke = on →
      exec (if on then .smokeActive else .smokeInactive) s = .next (s.taken .terminal .air))

/-- R58, R66, R80, R86, R87, R104, R105, R107, R112, R169: a timer that has run out stops, and does what its rule gives. A
tick adds 1 to the clock and changes nothing else, but at an advance of the Section Time in RUN, where the Run Seconds of
every RUNNING fan rise by 1, saturating, and no other fan's. A fan takes its place in the Start Queue by its Override mark
(R103), and after every event that changes the Fan Unit the head of the queue has been taken unless a fan is STARTING or the
start interval timer runs (R104). The premise is law 6 (FanLawsKept). -/
def Obligations.TimersAndTicks : Prop :=
  (∀ (s : State) (l : Fin 4) (i : Nat),
    (s.due (s.light.chan i).timer = true → ∃ t, exec (.presenceTimerExpiry i) s = .next t ∧
      (t.light.chan i).timer = none) ∧
    (s.due (s.air.head l i).fresh = true → ∃ t, exec (.freshnessTimerExpiry l i) s = .next t ∧
      t.air.head l i = { s.air.head l i with fresh := none }) ∧
    (s.due (s.air.zone i).trafficTimer = true → ∃ t, exec (.trafficTimerExpiry i) s = .next t ∧
      (t.air.zone i).trafficTimer = none) ∧
    (s.due (s.air.zone i).holdDown = true → ∃ t, exec (.holdDownExpiry i) s = .next t ∧
      (t.air.zone i).holdDown = none ∧ (t.air.zone i).stage = (s.air.zone i).demand) ∧
    (s.due (s.guid.sign i).refresh = true → ∃ t, exec (.refreshTimerExpiry i) s = .next t ∧
      (t.guid.sign i).refresh = none ∧ (t.guid.sign i).shown = (s.guid.sign i).shown) ∧
    (s.due (s.fan.fan i).startTimer = true → ∃ t, exec (.startTimerExpiry i) s = .next t ∧
      (t.fan.fan i).state = .fault ∧ (t.fan.fan i).cause = .startTimeout ∧ (t.fan.fan i).startTimer = none ∧
      (let r := (s.fan.fan i).inForce
      (r.node, Mark.output) ∈ (t.loop r.loop).order) ∧ t.attends .fanFault) ∧
    (s.due (s.fan.fan i).stopTimer = true → ∃ t, exec (.stopTimerExpiry i) s = .next t ∧
      (t.fan.fan i).state = .fault ∧ (t.fan.fan i).cause = .stopTimeout ∧ (t.fan.fan i).stopTimer = none ∧
      (let r := (s.fan.fan i).inForce
      (r.node, Mark.output) ∈ (t.loop r.loop).order) ∧ t.attends .fanFault) ∧
    (s.due s.fan.interval = true → ∃ t, exec .startIntervalExpiry s = .next t ∧
      (t.fan.interval = none ∨
        ∃ f, (t.fan.fan f).state = .starting ∧ t.fan.interval = some (s.clock + 1000 * s.cfg.params.startInterval) ∧
          (t.fan.fan f).startTimer = some (s.clock + 1000 * s.cfg.params.startTimeout)))) ∧
  (∀ (s t : State) (c : Instr), exec c s = .next t → (s.fan.queueOk = true → s.queueStep c t) ∧
    (t.fan ≠ s.fan → t.fan.headTaken = true)) ∧
  ∀ s : State, ∃ t, exec .clockTick s = .next t ∧ t.clock = s.clock + 1 ∧
    (¬((s.clock + 1) % 1000 = 0 ∧ s.mode = .run) → t = { s with clock := s.clock + 1 }) ∧
    ((s.clock + 1) % 1000 = 0 → s.mode = .run → ∀ f, f < 48 →
      (t.fan.fan f).runSeconds =
        (if (s.fan.fan f).state = .running then satInc (s.fan.fan f).runSeconds 1 else (s.fan.fan f).runSeconds))

/-- R117 to R121, R116: the terminals. A level change moves the line and, in RUN, starts or stops the debounce timer of an
input that has one, and the smoke timer at a change of the combined smoke input (R121); a debounce that runs out takes the
level as it stands and makes the input's event. A gate is queued while a terminal that carries its GATE_OUT has its queue
mark, and each change of that is one notice (R120). A terminal drives its
line in RUN while its function in effect is an output; its pull is the image's while it is an input in RUN, and none
otherwise; Terminal Levels and Terminal Active follow. The level of a line that no terminal drives is the one that LEVEL_CHANGE
has last set, also at the moment at which its terminal stops driving it, by the model's choice (log 55, DESIGN CHOICE). -/
def Obligations.TerminalInputs : Prop :=
  ∀ (s : State) (k : Fin 16),
    let x := s.term.term k
    let active (t : State) : Bool := t.term.lines.getLsbD k != (s.termCfg k).activeLow
    let reported (t : State) (g : Nat) : Prop :=
      (Tab.get false t.term.queued g = true ↔
        ∃ j p, j < 16 ∧ (t.term.term j).func = some (.gateOut g, p) ∧ (t.term.term j).mark = true) ∧
      t.chan = s.chan ++ (if Tab.get false t.term.queued g = Tab.get false s.term.queued g then [] else
        [{ src := .terminal, dst := .guidance, body := .gateQueue g (Tab.get false t.term.queued g) }])
    (∀ u : Term, u.smokeInput s = true ↔
      ∃ j p, j < 16 ∧ (u.term j).func = some (.smoke, p) ∧ (u.lines.getLsbD j != (s.termCfg j).activeLow) = true) ∧
    (∀ high, s.term.lines.getLsbD k = high → exec (.levelChange k high) s = .next s) ∧
    (∀ high, s.term.lines.getLsbD k ≠ high → ∃ t, exec (.levelChange k high) s = .next t ∧
      (∀ j, j < 16 → t.term.lines.getLsbD j = (if j = k.val then high else s.term.lines.getLsbD j)) ∧
      (s.mode ≠ .run → t = { s with term := { s.term with lines := t.term.lines } }) ∧
      (s.mode = .run → ∀ f p d, x.func = some (f, p) → debounceTime f = some d →
        t.term.term k = { x with timer := if active t = x.deb then none else some (s.clock + d) }) ∧
      (s.mode = .run → t.term.smokeDeb = s.term.smokeDeb ∧ t.term.smokeTimer =
        (if t.term.smokeInput s = s.term.smokeInput s then s.term.smokeTimer
         else if t.term.smokeInput s = s.term.smokeDeb then none else some (s.clock + 1000)))) ∧
    (s.due x.timer = true → ∃ t, exec (.debounceExpiry k) s = .next t ∧ (t.term.term k).timer = none ∧
      (t.term.term k).deb = active s ∧
      (∀ g p, x.func = some (.gateIn g, p) → t.chan = s.chan ++
        (if active s then [{ src := .terminal, dst := .guidance, body := .entry g }] else [])) ∧
      (∀ g p, x.func = some (.gateOut g, p) → active s = true →
        t.chan = s.chan ++ [{ src := .terminal, dst := .guidance, body := .exit g }] ∧
        (t.term.term k).exitTimer = some (s.clock + 1000 * (Tab.get GateRec.init s.term.gates g).exitQueue)) ∧
      (∀ g p, x.func = some (.gateOut g, p) → active s = false →
        (t.term.term k).mark = false ∧ (t.term.term k).exitTimer = none ∧ reported t g) ∧
      (∀ f p, x.func = some (.fanFb f, p) → t.chan = s.chan ++
        [{ src := .terminal, dst := .fan, body := .feedback f k (some (active s)) }])) ∧
    (s.due s.term.smokeTimer = true → ∃ t, exec .smokeDebounceExpiry s = .next t ∧ t.term.smokeTimer = none ∧
      t.term.smokeDeb = s.term.smokeInput s ∧
      t.chan = s.chan ++ [{ src := .terminal, dst := .air, body := .smoke (s.term.smokeInput s) }]) ∧
    (s.due x.exitTimer = true → ∃ t, exec (.exitQueueExpiry k) s = .next t ∧ (t.term.term k).exitTimer = none ∧
      (t.term.term k).mark = true ∧
      ∀ g p, x.func = some (.gateOut g, p) → Tab.get false t.term.queued g = true ∧ reported t g) ∧
    (s.terminalDrives k = true ↔ s.mode = .run ∧ ∃ f p, x.func = some (f, p) ∧ f.output = true) ∧
    (s.terminalPull k = (if s.mode = .run ∧ s.terminalDrives k = false then
      (if (s.termCfg k).pull = 1 then .up else if (s.termCfg k).pull = 2 then .down else .none) else .none)) ∧
    (s.terminalDrives k = false → s.terminalLevel k = s.term.lines.getLsbD k) ∧
    (x.func = none → s.terminalActive k = false) ∧
    (∀ f p, x.func = some (f, p) →
      (s.terminalDrives k = true → s.terminalLevel k = (s.terminalActive k != (s.termCfg k).activeLow)) ∧
      (f.output = true → s.terminalActive k = s.term.asks s.live.plainOut f) ∧
      (f.output = false → s.terminalActive k = (if f = .smoke then s.term.smokeDeb else x.deb))) ∧
    ∀ (u : Term) (plain : BitVec 16) (z j g i : Nat),
      u.asks plain (.stageOut z j) = decide (j ≤ Tab.get 0 u.stages z) ∧
      u.asks plain (.gateFull g) = Tab.get false u.full g ∧ u.asks plain .alarmOut = u.alarm ∧
      u.asks plain (.plainOut i) = plain.getLsbD i

/-- R21, with R24, R37, R38, R39, R43, R62, R63, R74, R75, R95, R96: each unit takes a commit from its pair, and the new record is
in force at it. A BAY commit between two enabled records goes by what it changes: another sensor reference places the bay
anew, CLOSED or UNKNOWN; of one that keeps the reference, the Closed flag decides; where that is kept the bay keeps its
state, and a FREE one that changes its counting place is lost at the old and gained at the new. A CHANNEL commit compares the
nodes that its enabled records name when the channel is assigned, unassigned or moved (R74, R75); one that keeps its place and
every desired level marks nothing (log 30). A ZONE commit at the Air Unit clears the air fields of a zone that it disables,
and evaluates one that it enables or changes, the stage following. A GATE commit withdraws the queue of a gate it disables,
and passes it on to the new zone. A commit of unchanged content changes nothing at the Guidance Unit. Where the pair must
follow the record in force, the premise says so: Table Capture makes it of the applied record it replaces.
These clauses are the model's own reading. A BAY commit sets OUTPUT for the node of each enabled record, old or new, whose
lamp word differs, also when the commit has changed neither word: R37 and R39 followed where R40 compares only nodes whose
desired or Reported Word has changed (log 58, DEDUCED). Of the node that a disabled record names, at a BAY or CHANNEL commit,
nothing is said (log 68, DESIGN CHOICE). The Input Map that moves is the unit's own, at the taking of the pair (log 4,
DEDUCED). A SIGN commit from disabled to enabled sets Shown Valid false whatever node the disabled record named (log 51,
DESIGN CHOICE). -/
def Obligations.CommitsTaken : Prop :=
  ∀ (s : State) (i : Nat),
    (∀ old new, s.next? .capture .occupancy = some (.commit i (.bay old) (.bay new)) →
      let b := s.occ.bay i
      let kept : Prop := old.loop = new.loop ∧ old.node = new.node ∧ old.input = new.input
      let entered : BayState := if new.closed then .closed else .unknown
      let place (t : State) (st : BayState) : Prop := t.occ.bay i = { b with
        inForce := new, state := st, pend := none, agree := 0, lastChange := if st = b.state then b.lastChange else s.time }
      let lost : List (Bool × Nat × Nat) := if b.state = .free then [(false, old.zone, old.cls)] else []
      ∃ t ms, exec (.bayCommit i) s = .next t ∧ (t.occ.bay i).inForce = new ∧
        t.chan = dropMsg .capture .occupancy s.chan ++ ms ∧ s.occ.tells t.occ ms ∧
        (old.enabled = true ∨ new.enabled = true → .record .bay i ∈ t.reflect.list) ∧
        (∀ r, r = old ∨ r = new → r.enabled = true →
          ((t.occ.node r.loop r.node).reported.map (BitVec.truncate 16) ≠ some (t.occ.lampWord r.loop r.node)) →
          (r.node, Mark.output) ∈ (t.loop r.loop).order) ∧
        (old.enabled = false → freeNotices ms = []) ∧ (old.enabled = true → new.enabled = false → freeNotices ms = lost) ∧
        (old.enabled = true → new.enabled = true →
          (¬kept → place t entered ∧ freeNotices ms = lost) ∧
          (kept → old.closed = false → new.closed = true → place t .closed ∧ freeNotices ms = lost) ∧
          (kept → old.closed = true → new.closed = false → place t .unknown ∧ freeNotices ms = []) ∧
          (kept → old.closed = new.closed → t.occ.bay i = { b with inForce := new } ∧
            (old.zone = new.zone → old.cls = new.cls → freeNotices ms = []) ∧
            ((old.zone ≠ new.zone ∨ old.cls ≠ new.cls) → freeNotices ms =
              (if b.state = .free then [(false, old.zone, old.cls), (true, new.zone, new.cls)] else [])))) ∧
        (∀ k, Tab.get none t.occ.inputs k =
          if new.enabled = true ∧ k = inputKey new.loop new.node new.input then some i
          else if old.enabled = true ∧ k = inputKey old.loop old.node old.input then none
          else Tab.get none s.occ.inputs k) ∧
        (new.enabled = false → old.enabled = true → (t.occ.bay i).state = .disabled ∧ (t.occ.bay i).pend = none) ∧
        (new.enabled = true → old.enabled = false →
          (t.occ.bay i).state = (if new.closed then .closed else .unknown) ∧ (t.occ.bay i).pend = none)) ∧
    (∀ old new, s.next? .capture .lighting = some (.commit i (.channel old) (.channel new)) →
      ∃ t, exec (.channelCommit i) s = .next t ∧ (t.light.chan i).inForce = new ∧
        (t.light.chan i).routes = (s.light.chan i).routes ∧
        (t.light.chan i).timer = (if old.enabled && new.enabled then (s.light.chan i).timer else none) ∧
        s.lightMarked t (if old.enabled = true ∧ new.enabled = true ∧ old.loop = new.loop ∧ old.node = new.node ∧
          old.output = new.output then [] else old.places ++ new.places) ∧
        (old.enabled = true → new.enabled = true → old.loop = new.loop → old.node = new.node → old.output = new.output →
          (∀ p ∈ nodePlaces, t.light.desired s.maps p.1 p.2 = s.light.desired s.maps p.1 p.2) → t.loops = s.loops)) ∧
    (∀ old new, s.next? .capture .air = some (.commit i (.zone old) (.zone new)) →
      let x := s.air.zone i
      let blank : AZone := { x with
        inForce := new, coLevel := 0, no2Level := 0, purge := false, co := 0, no2 := 0, gasUnknown := false, noHeads := false,
        gasDemand := 0, failDemand := 0, trafficTimer := none, trafficDemand := 0, demand := 0, holdDown := none }
      ∃ t, exec (.zoneCommitAir i) s = .next t ∧ (∀ z, z ≠ i → t.air.zone z = s.air.zone z) ∧ t.air.heads = s.air.heads ∧
        let y := t.air.zone i
        (y.gasUnknown = true → x.gasUnknown = false → (old.enabled = true ∨ new.enabled = true) → t.attends .gasUnknown) ∧
        (old.enabled = false → new.enabled = false → y = { x with inForce := new }) ∧
        (old.enabled = false → new.enabled = true →
          { y with stage := x.stage, since := x.since } = demandOf (gasOf s.air blank) ∧
          s.stageGoes t i (if s.air.override = .clearing then 4 else y.demand)) ∧
        (old.enabled = true → new.enabled = false →
          { y with stage := x.stage, since := x.since } = blank ∧ s.stageGoes t i 0) ∧
        (old.enabled = true → new.enabled = true →
          { y with stage := x.stage, since := x.since, holdDown := x.holdDown } = demandOf (gasOf s.air { x with
            inForce := new, trafficTimer := if new.trafficHold = 0 then none else x.trafficTimer }) ∧
          s.stageRuled t i new)) ∧
    (∀ old new, s.next? .capture .guidance = some (.commit i (.zone old) (.zone new)) → (s.guid.zone i).inForce = old →
      ∃ t, exec (.zoneCommitGuidance i) s = .next t ∧ (t.guid.zone i).inForce = new ∧ (old = new → t.guid = s.guid) ∧
        (old ≠ new → (t.guid.zone i).reasons =
          { (s.guid.zone i).reasons with disabled := !new.enabled, host := new.enabled && new.closed })) ∧
    (∀ old new, s.next? .capture .guidance = some (.commit i (.gate old) (.gate new)) → (s.guid.gate i).inForce = old →
      ∃ t, exec (.gateCommit i) s = .next t ∧ (t.guid.gate i).inForce = new ∧ (old = new → t.guid = s.guid) ∧
        (t.guid.gate i).entries = (s.guid.gate i).entries ∧ (t.guid.gate i).unguided = (s.guid.gate i).unguided ∧
        (t.guid.gate i).exits = (s.guid.gate i).exits ∧ (t.guid.gate i).lastTarget = (s.guid.gate i).lastTarget ∧
        t.guid.holds = s.guid.holds ∧
        let x := s.guid.gate i
        let leaves : Prop := old.enabled = true ∧ new.enabled = false
        let passes : Prop := old.enabled = true ∧ new.enabled = true ∧ old.zone ≠ new.zone
        let say (b : Body) : Msg := { src := .guidance, dst := .air, body := b }
        (leaves → (t.guid.gate i).queue = false ∧ (x.queue = true → .record .gate i ∈ t.reflect.list)) ∧
        (¬leaves → (t.guid.gate i).queue = x.queue) ∧
        ∃ ms qs, t.chan = dropMsg .capture .guidance s.chan ++ qs ++ ms ∧ (∀ m ∈ ms, m.dst = .terminal) ∧
          (x.queue = true → leaves → qs = [say (.queueWithdrawn old.zone)]) ∧
          (x.queue = true → passes → qs = [say (.queueWithdrawn old.zone), say (.queueRaised new.zone)]) ∧
          (x.queue = false ∨ ¬leaves ∧ ¬passes → qs = [])) ∧
    ∀ old new, s.next? .capture .guidance = some (.commit i (.sign old) (.sign new)) → (s.guid.sign i).inForce = old →
      let moved : Prop := old.loop ≠ new.loop ∨ old.node ≠ new.node
      ∃ t, exec (.signCommit i) s = .next t ∧ (t.guid.sign i).inForce = new ∧ (old = new → t.guid = s.guid) ∧
        (t.guid.sign i).shown = (s.guid.sign i).shown ∧ (t.guid.sign i).lastShow = (s.guid.sign i).lastShow ∧
        (t.guid.sign i).refresh = (s.guid.sign i).refresh ∧
        (new.enabled = true → (old.enabled = false ∨ moved) → (t.guid.sign i).valid = false) ∧
        (¬(new.enabled = true ∧ (old.enabled = false ∨ moved)) → (t.guid.sign i).valid = (s.guid.sign i).valid) ∧
        (old ≠ new → old.enabled = true → (moved ∨ new.auto = false) → (old.node, Mark.show) ∈ (t.loop old.loop).order →
          ∃ j, (t.guid.sign j).inForce.auto = true ∧ (t.guid.sign j).inForce.loop = old.loop ∧
            (t.guid.sign j).inForce.node = old.node)

/-- R113, R114: a FAN and a GROUP commit at the Fan Unit, by what of the record has changed. The premises are laws of the unit
(FanLawsKept), and that the pair begins at the record in force. -/
def Obligations.FanAndGroupCommits : Prop :=
  ∀ (s : State) (i : Nat), s.fan.queueOk = true →
    (∀ old new, s.next? .capture .fan = some (.commit i (.fan old) (.fan new)) → (s.fan.fan i).inForce = old →
      let x := s.fan.fan i
      let moved : Prop := old.loop ≠ new.loop ∨ old.node ≠ new.node
      ∃ t, exec (.fanCommit i) s = .next t ∧
        let y := t.fan.fan i
        let fresh : Prop := if new.isolate then y.state = .isolated
          else y.state = .stopped ∨ y.state = .queued ∨ y.state = .starting
        y.inForce = new ∧ y.wanted = t.fan.wants s.maps i ∧ y.runSeconds = x.runSeconds ∧ y.starts = x.starts ∧ y.cause = x.cause ∧
        (new.enabled = true → (old.enabled = false ∨ moved) → fresh ∧ y.feedback = .unknown ∧ y.notRunning = 0 ∧
          y.stopTimer = none) ∧
        (old.enabled = true → (new.enabled = false ∨ moved) → (old.node, Mark.output) ∈ (t.loop old.loop).order) ∧
        (old.enabled = true → new.enabled = false → y.state = .stopped ∧ y.command = 0 ∧ y.startTimer = none ∧
          y.stopTimer = none) ∧
        (old.enabled = true → new.enabled = true → ¬moved →
          (old.isolate = false → new.isolate = true →
            ((x.state = .starting ∨ x.state = .running) → y.state = .stopping ∧ y.command = 0 ∧
              y.stopTimer = some (s.clock + 1000 * s.cfg.params.stopTimeout)) ∧
            ((x.state = .stopped ∨ x.state = .queued ∨ x.state = .fault) → y.state = .isolated) ∧
            (x.state = .stopping → y.state = .stopping)) ∧
          (old.isolate = true → new.isolate = false → x.state = .isolated → fresh ∧ y.feedback = .unknown))) ∧
    ∀ old new, s.next? .capture .fan = some (.commit i (.group old) (.group new)) → (s.fan.group i).inForce = old →
      s.fan.groupsOk →
      let x := s.fan.group i
      ∃ t, exec (.groupCommit i) s = .next t ∧
        let y := t.fan.group i
        y.inForce = new ∧ y.stage = t.fan.stageFor new ∧ (∀ f, (t.fan.fan f).wanted = t.fan.wants s.maps f) ∧
        (new.enabled = false → y.stage = 0 ∧ y.short = false ∧ y.running = 0) ∧
        (old.enabled ≠ new.enabled → y.lead = 0) ∧
        (old.enabled = true → new.enabled = true → y.lead =
          (if dutySeq old ≠ dutySeq new then 0
           else if 0 < x.stage ∧ y.stage = 0 then (if x.lead + 1 < (dutySeq new).length then x.lead + 1 else 0) else x.lead))

/-- R21, R115, R116: the Terminal Block takes the report of a commit and evaluates every terminal: its function is the first
usable candidate under the new record, but for a terminal that an override holds at SMOKE. Term.gives (Safety.lean) says by
Table 7.1 what a candidate names and when it is usable. A terminal that keeps its function stands as it was. -/
def Obligations.FunctionEvaluationChooses : Prop :=
  ∀ (s : State) (k : Table) (i : Nat) (old new : AnyRec), s.next? .capture .terminal = some (.commit i old new) →
    new.table = k →
    ∃ t, exec (.functionEvaluation k i) s = .next t ∧
      (∀ r, new = .gate r → Tab.get GateRec.init t.term.gates i = r) ∧
      (∀ r, new = .fan r → Tab.get FanRec.init t.term.fans i = r) ∧
      (∀ r, new = .zone r → Tab.get ZoneRec.init t.term.zones i = r) ∧
      ∀ n, n < 16 →
        let cur := (s.term.term n).func.map (fun p => p.1)
        if s.term.override ≠ .normal ∧ cur = some .smoke then (t.term.term n).func = (s.term.term n).func
        else ∃ r, t.term.gives n (s.termCfg n).cands r ∧ (t.term.term n).func.map (fun p => p.1) = r.map (fun p => p.1) ∧
          (cur ≠ r.map (fun p => p.1) → (t.term.term n).func = r) ∧
          (cur = r.map (fun p => p.1) → t.term.term n = s.term.term n)

/-! ### Frames -/

/-- What the commands of the memory path and of the Live Window leave as it was: memory changes by seven commands alone, and
the beats, the commit, the fetch and the Reflect Engine change no unit of the section and no loop. -/
def Obligations.MemoryPathFrame : Prop :=
  (∀ (s t : State) (c : Instr), exec c s = .next t →
    (∀ b, c ≠ .plainBeat b ∧ c ≠ .tableWriteBeat b ∧ c ≠ .ringWriteBeat b ∧ c ≠ .hostTableRead b) → c ≠ .reflectWrite →
    c ≠ .buildWrite → (c = .fetchAttempt → s.port.wait = none) → t.mem = s.mem) ∧
  ∀ (s : State) (b : Beat) (c : Instr),
    c ∈ [Instr.plainBeat b, .tableWriteBeat b, .ringWriteBeat b, .hostTableRead b, .reflectWrite, .buildWrite,
      .commitReadBackDone, .fetchAttempt, .liveSnapshot b, .attentionPendingWrite b, .plainOutputWrite b] →
    ∃ t, exec c s = .next t ∧ s.unitsKept t ∧ t.loops = s.loops ∧ t.guard = s.guard ∧ t.mode = s.mode ∧
      t.clock = s.clock ∧ t.cfg = s.cfg ∧ t.pending = s.pending ∧ t.resetCause = s.resetCause

/-- What an event of one unit leaves as it was: the other units, the memory path, every lock bit, the request ring, and of the
rest all but attention bits set, marks of nodes, records joining the Reflect List and messages sent. The hard locks change
by the Air Unit alone (R91, R94). -/
def Obligations.UnitEventFrame : Prop :=
  ∀ (s : State) (c : Instr) (u : UnitId), unitOf s c = some u →
    ∃ t, exec c s = .next t ∧ s.coreKept t ∧ s.liveKept t ∧ s.loopsKept t ∧ s.reflectKept t ∧ s.chanKept t ∧
      t.guard.locks = s.guard.locks ∧ (u ≠ .air → t.guard = s.guard) ∧ (u ≠ .occupancy → t.occ = s.occ) ∧
      (u ≠ .guidance → t.guid = s.guid) ∧ (u ≠ .lighting → t.light = s.light) ∧ (u ≠ .air → t.air = s.air) ∧
      (u ≠ .fan → t.fan = s.fan) ∧ (u ≠ .terminal → t.term = s.term) ∧ (u ≠ .ring → t.ring = s.ring)

/-- What an event of one loop leaves as it was: every other loop, the units of the section, the memory path and the Guard Map;
of the Request Ring Unit all but the loop's own Host Queue, the slots of its entries, the Completed count and the cause of a
departure (R151, R152, R154: a dispatch writes a slot ACTIVE, an entry that a check ends completes); and of the rest all but
attention bits set, records joining the Reflect List, messages sent and the model's own counter of free values (log 39). -/
def Obligations.LoopEventFrame : Prop :=
  ∀ (s : State) (c : Instr) (l : Nat), loopOf c = some l →
    ∃ t, exec c s = .next t ∧ s.coreKept t ∧ s.liveKept t ∧ s.unitsKept t ∧ s.reflectKept t ∧ t.guard = s.guard ∧
      (∃ ms, t.chan = s.chan ++ ms) ∧ (∀ k, k ≠ l → t.loop k = s.loop k) ∧
      (∀ k, k ≠ l → t.ring.queue k = s.ring.queue k) ∧
      (∀ i, (∀ x ∈ s.ring.queue l, x.slot ≠ i) → t.ring.slot i = s.ring.slot i) ∧
      (let kept (r : Ring) : Ring := { r with completed := 0, causeDeparture := false, slots := [], queues := [] }
      kept t.ring = kept s.ring)

/-! ### Invariants that every step keeps -/

/-- Memory keeps its canonical form. -/
def Obligations.MemoryCanonicalKept : Prop := ∀ s t : State, s.memWf = true → step s = .next t → t.memWf = true

/-- Laws 5 and 6 (R103, R104) with R100, R102, R105, R107: at most one fan is STARTING, a fan is in the Start Queue, once,
exactly when QUEUED, the start and stop timers run in STARTING and STOPPING alone; and the Group Stage, SHORT and Running
Count of every group are those that its record and the fans give. -/
def Obligations.FanLawsKept : Prop :=
  (∀ s t : State, s.fan.oneStarting = true → s.fan.queueOk = true → step s = .next t →
    t.fan.oneStarting = true ∧ t.fan.queueOk = true ∧ (s.fan.timersOk → t.fan.timersOk)) ∧
  ∀ s t : State, s.fan.groupsOk → step s = .next t → t.fan.groupsOk

/-- Laws 1 and 2 with R42, R45, R46, R47, R53 and R57: no hold targets a CLOSED zone, every Guidance State is the one its
reasons and counts give, the Hold List has at most 64 holds, H counts the holds of each zone and is not above its free
GENERAL bays, and the FULL flags and Sign Statuses are those that their terms give. The premise says what the Occupancy
Unit's notice FREE gained means: its count is not below the copy. -/
def Obligations.GuidanceLawsKept : Prop :=
  ∀ s t : State, s.guid.holdsOpen → s.guid.evaluated → s.guid.holdsOk = true → s.guid.holdsCounted → s.guid.holdsWithin →
    s.guid.shownOk →
    (∀ z count, s.next? .occupancy .guidance = some (.freeGained z 0 count) → (s.guid.zone z).general ≤ count) →
    step s = .next t →
    t.guid.holdsOpen ∧ t.guid.evaluated ∧ t.guid.holdsOk = true ∧ t.guid.holdsCounted ∧ t.guid.holdsWithin ∧ t.guid.shownOk

/-- Law 11 (R65) with R69: every channel's Commanded Level and Channel Status are the ones its terms give. Law 3 (R67): the Route
Count of every channel, with the route notices on their way taken, is the number of holds whose Route lists it. -/
def Obligations.LightLevelsKept : Prop :=
  (∀ s t : State, s.light.evaluated → step s = .next t → t.light.evaluated) ∧
  ∀ s t : State, s.routesCounted → step s = .next t → t.routesCounted

/-- R32, R33, R24: the counts of every zone are those of the bays, and the Fault Condition follows them; R20, R40: the unit's
Input Map names each enabled bay at its own input and no other; and law 8 (R25) by the unit's Node Usable: no bay is FREE or
OCCUPIED at a node that the unit holds not usable. The premise is that a BAY pair begins at the record in force, as Table Capture
makes it (R21), and, for the map, that the new record's input is free or its own, which the duplicate check has found (R16); for
law 8, that this input is in its range (R16), and that a poll reply comes from a node that the unit holds usable: the Controller
delivers it before the notice of the node's loss (R25). -/
def Obligations.OccCountsKept : Prop :=
  ∀ s t : State,
    (∀ i old new, s.next? .capture .occupancy = some (.commit i (.bay old) (.bay new)) → old = (s.occ.bay i).inForce) →
    step s = .next t →
    (s.occ.counted → t.occ.counted) ∧
      (s.occ.mapped →
        (∀ i old new, s.next? .capture .occupancy = some (.commit i (.bay old) (.bay new)) → new.enabled = true →
          ∀ k, Tab.get none s.occ.inputs (inputKey new.loop new.node new.input) = some k → k = i) →
        t.occ.mapped) ∧
      (s.occ.counted → s.occ.mapped → s.occ.confirmed →
        (∀ i old new, s.next? .capture .occupancy = some (.commit i (.bay old) (.bay new)) → new.enabled = true →
          new.input ≤ 15) →
        (∀ l n occupancy fault word, s.next? (.controller l) .occupancy = some (.bayPoll n occupancy fault word) →
          (s.occ.node l n).usable = true) →
        t.occ.confirmed)

/-- Law 4 (R87) with R82 to R86, R89, R92 and R95: the demands of every enabled zone are those of its heads and terms, its
Applied Stage is below none of Gas Demand, Fail Demand, Stage Floor and D, and the Alarm condition follows. The premise is
that a ZONE pair begins at the record in force and that a new enabled record has a Stage Floor of at most 4, which R13
checks. -/
def Obligations.AirLawsKept : Prop :=
  ∀ s t : State, s.air.lawful →
    (∀ i old new, s.next? .capture .air = some (.commit i (.zone old) (.zone new)) →
      old = (s.air.zone i).inForce ∧ (new.enabled = true → new.floor ≤ 4)) →
    step s = .next t → t.air.lawful

/-- Law 10 (R162): the Reflect List holds each record at most once. R151, R150 (logs 26 and 46): no entry that stands
earliest in its Host Queue stands at a node whose state ends it, and the entries of a queue keep numbers of their own. Law 12
(R150): Fetch is Completed and the number of entries in the Host Queues, each of which stands in one queue alone. R150,
R165, R143, R175, R159: no Host Queue passes 8 entries, the grant counter 16, a pending order holds a mark once, attention
bits stay in their twelve places, and Last Dropped Address stays a word address. R22, R168: in LOADING no SIGN record in force
is enabled and no commit is under way. -/
def Obligations.ListsAndBoundsKept : Prop :=
  (∀ s t : State, s.reflect.single = true → step s = .next t → t.reflect.single = true) ∧
  (∀ s t : State, s.settled → step s = .next t → t.settled) ∧
  (∀ s t : State, s.ring.idsOk → step s = .next t → t.ring.idsOk) ∧
  (∀ s t : State, s.ring.idsOk → s.ring.fetchedOnce → step s = .next t → t.ring.fetchedOnce) ∧
  (∀ s t : State, s.loadingQuiet → step s = .next t → t.loadingQuiet) ∧
  (∀ s t : State, s.ring.queuesOk = true → step s = .next t → t.ring.queuesOk = true) ∧
  (∀ s t : State, s.port.counterOk = true → step s = .next t → t.port.counterOk = true) ∧
  (∀ s t : State, (∀ l, (s.loop l).orderOk = true) → step s = .next t → ∀ l, (t.loop l).orderOk = true) ∧
  ∀ s t : State, s.live.attentionOk = true → s.live.droppedOk = true → step s = .next t →
    t.live.attentionOk = true ∧ t.live.droppedOk = true

/-- Every invariant stated above holds right after reset. -/
def Obligations.InvariantsAtReset : Prop :=
  let r := State.reset
  r.memWf = true ∧ r.reflect.single = true ∧ r.settled ∧ r.ring.idsOk ∧ r.fan.oneStarting = true ∧ r.fan.queueOk = true ∧
    r.fan.timersOk ∧ r.fan.groupsOk ∧ r.guid.holdsOpen ∧ r.guid.evaluated ∧ r.guid.holdsOk = true ∧ r.guid.holdsCounted ∧
    r.guid.holdsWithin ∧ r.guid.shownOk ∧ r.light.evaluated ∧ r.routesCounted ∧ r.ring.fetchedOnce ∧ r.occ.counted ∧
    r.occ.mapped ∧ r.occ.confirmed ∧ r.air.lawful ∧ r.ring.queuesOk = true ∧
    r.port.counterOk = true ∧ (∀ l, (r.loop l).orderOk = true) ∧ r.live.attentionOk = true ∧ r.live.droppedOk = true ∧
    r.showMarked ∧ r.loadingQuiet

end Statements
end

