-- ==== Sys2Proof/Laws/Memory.lean ====
section
/-! SUPPORT. Laws of sparse tables and of memory: what a write does to every read, and that it keeps the canonical form. -/

namespace Sys2Proof.Machine

/-! ### Sparse tables -/

section Tables

variable {α : Type} (d : α)

theorem Tab.get_erase_same (t : Tab α) (i : Nat) : Tab.get d (Tab.erase t i) i = d := by
  induction t with
  | nil => rfl
  | cons e t ih =>
    obtain ⟨k, v⟩ := e
    by_cases h : k = i
    · simpa [Tab.erase, h] using ih
    · simpa [Tab.erase, h, Tab.get, Ne.symm h] using ih

theorem Tab.get_erase_other (t : Tab α) {i j : Nat} (h : j ≠ i) : Tab.get d (Tab.erase t i) j = Tab.get d t j := by
  induction t with
  | nil => rfl
  | cons e t ih =>
    obtain ⟨k, v⟩ := e
    by_cases hk : k = i
    · subst hk
      simpa [Tab.erase, Tab.get, h] using ih
    · have ih' : Tab.get d (List.filter (fun e => decide (e.1 ≠ i)) t) j = Tab.get d t j := ih
      simp [Tab.erase, hk, Tab.get] at ih' ⊢
      rw [ih']

/-- An insertion into a table that lists no entry at `i`: it is the entry at `i`, and every other index reads as before. -/
theorem Tab.get_insert (t : Tab α) (i j : Nat) (v : α) (h : ∀ e ∈ t, e.1 ≠ i) :
    Tab.get d (Tab.insert t i v) j = if j = i then v else Tab.get d t j := by
  induction t with
  | nil => by_cases hj : j = i <;> simp [Tab.insert, Tab.get, hj]
  | cons e t ih =>
    obtain ⟨k, w⟩ := e
    have hk : k ≠ i := h (k, w) (by simp)
    have ih := ih (fun e he => h e (by simp [he]))
    by_cases hi : i < k
    · by_cases hj : j = i <;> simp [Tab.insert, Tab.get, hi, hj]
    · by_cases hj : j = i
      · subst hj
        simp [Tab.insert, hi, Tab.get, Ne.symm hk, ih]
      · by_cases hjk : j = k
        · subst hjk
          simp [Tab.insert, hi, Tab.get, hj]
        · simp [Tab.insert, hi, Tab.get, hj, hjk, ih]

theorem Tab.mem_erase_ne {t : Tab α} {i : Nat} {e : Nat × α} (h : e ∈ Tab.erase t i) : e.1 ≠ i := by
  simpa using (List.mem_filter.mp h).2

/-- What a write to a table does to every read. -/
theorem Tab.get_set [DecidableEq α] (t : Tab α) (i j : Nat) (v : α) :
    Tab.get d (Tab.set d t i v) j = if j = i then v else Tab.get d t j := by
  unfold Tab.set
  by_cases hv : v = d
  · by_cases hj : j = i
    · subst hj
      simp [hv, Tab.get_erase_same]
    · simp [hv, hj, Tab.get_erase_other d t hj]
  · rw [if_neg hv, Tab.get_insert d _ i j v (fun e he => Tab.mem_erase_ne he)]
    by_cases hj : j = i
    · simp [hj]
    · simp [hj, Tab.get_erase_other d t hj]

@[simp] theorem Tab.get_set_same [DecidableEq α] (t : Tab α) (i : Nat) (v : α) : Tab.get d (Tab.set d t i v) i = v := by
  simp [Tab.get_set]

theorem Tab.get_set_other [DecidableEq α] (t : Tab α) {i j : Nat} (v : α) (h : j ≠ i) :
    Tab.get d (Tab.set d t i v) j = Tab.get d t j := by simp [Tab.get_set, h]

/-- The entries of a written table: those of the old one but for index `i`, and the new one. -/
theorem Tab.mem_set [DecidableEq α] {t : Tab α} {i : Nat} {v : α} {e : Nat × α} (h : e ∈ Tab.set d t i v) :
    (e ∈ t ∧ e.1 ≠ i) ∨ e = (i, v) := by
  have ins : ∀ u : Tab α, e ∈ Tab.insert u i v → e ∈ u ∨ e = (i, v) := by
    intro u
    induction u with
    | nil => intro h; right; simpa [Tab.insert] using h
    | cons x u ih =>
      obtain ⟨k, w⟩ := x
      intro h
      by_cases hk : i < k
      · simp only [Tab.insert, hk, if_true, List.mem_cons] at h
        rcases h with h | h | h
        · exact Or.inr h
        · exact Or.inl (by simp [h])
        · exact Or.inl (by simp [h])
      · simp only [Tab.insert, hk, if_false, List.mem_cons] at h
        rcases h with h | h
        · exact Or.inl (by simp [h])
        · rcases ih h with h | h
          · exact Or.inl (by simp [h])
          · exact Or.inr h
  unfold Tab.set at h
  have er : e ∈ Tab.erase t i → e ∈ t ∧ e.1 ≠ i := fun h => ⟨(List.mem_filter.mp h).1, Tab.mem_erase_ne h⟩
  split at h
  · exact Or.inl (er h)
  · rcases ins _ h with h | h
    · exact Or.inl (er h)
    · exact Or.inr h

/-- The canonical form says that the listed indices rise above `lo` and that no listed entry is the default. -/
theorem Tab.wfFrom_cons [DecidableEq α] (lo : Option Nat) (k : Nat) (v : α) (t : Tab α) :
    Tab.wfFrom d lo ((k, v) :: t) = true ↔ (∀ m, lo = some m → m < k) ∧ v ≠ d ∧ Tab.wfFrom d (some k) t = true := by
  cases lo <;> simp [Tab.wfFrom, and_assoc]

/-- A canonical table stays canonical above a smaller bound. -/
theorem Tab.wfFrom_mono [DecidableEq α] {lo lo' : Option Nat} {t : Tab α} (h : Tab.wfFrom d lo t = true)
    (hlo : ∀ m', lo' = some m' → ∃ m, lo = some m ∧ m' ≤ m) : Tab.wfFrom d lo' t = true := by
  cases t with
  | nil => rfl
  | cons e t =>
    obtain ⟨k, v⟩ := e
    rw [Tab.wfFrom_cons] at h ⊢
    refine ⟨fun m' hm' => ?_, h.2⟩
    obtain ⟨m, hm, hle⟩ := hlo m' hm'
    exact lt_of_le_of_lt hle (h.1 m hm)

theorem Tab.wfFrom_erase [DecidableEq α] (i : Nat) {lo : Option Nat} {t : Tab α} (h : Tab.wfFrom d lo t = true) :
    Tab.wfFrom d lo (Tab.erase t i) = true := by
  induction t generalizing lo with
  | nil => rfl
  | cons e t ih =>
    obtain ⟨k, v⟩ := e
    rw [Tab.wfFrom_cons] at h
    by_cases hk : k = i
    · have : Tab.erase ((k, v) :: t) i = Tab.erase t i := by simp [Tab.erase, hk]
      rw [this]
      exact ih (Tab.wfFrom_mono d h.2.2 (fun m hm => ⟨k, rfl, (h.1 m hm).le⟩))
    · have : Tab.erase ((k, v) :: t) i = (k, v) :: Tab.erase t i := by simp [Tab.erase, hk]
      rw [this, Tab.wfFrom_cons]
      exact ⟨h.1, h.2.1, ih h.2.2⟩

theorem Tab.wfFrom_insert [DecidableEq α] {i : Nat} {v : α} (hv : v ≠ d) {lo : Option Nat} {t : Tab α}
    (h : Tab.wfFrom d lo t = true) (hlo : ∀ m, lo = some m → m < i) (hne : ∀ e ∈ t, e.1 ≠ i) :
    Tab.wfFrom d lo (Tab.insert t i v) = true := by
  induction t generalizing lo with
  | nil => exact (Tab.wfFrom_cons d lo i v []).mpr ⟨hlo, hv, rfl⟩
  | cons e t ih =>
    obtain ⟨k, w⟩ := e
    rw [Tab.wfFrom_cons] at h
    by_cases hi : i < k
    · rw [show Tab.insert ((k, w) :: t) i v = (i, v) :: (k, w) :: t by simp [Tab.insert, hi], Tab.wfFrom_cons, Tab.wfFrom_cons]
      exact ⟨hlo, hv, fun m hm => by cases hm; exact hi, h.2⟩
    · have hk : k ≠ i := hne (k, w) (by simp)
      rw [show Tab.insert ((k, w) :: t) i v = (k, w) :: Tab.insert t i v by simp [Tab.insert, hi], Tab.wfFrom_cons]
      refine ⟨h.1, h.2.1, ih h.2.2 (fun m hm => ?_) (fun e he => hne e (by simp [he]))⟩
      cases hm
      omega

/-- A write keeps the canonical form. -/
theorem Tab.wf_set [DecidableEq α] {t : Tab α} (i : Nat) (v : α) (h : Tab.wf d t = true) :
    Tab.wf d (Tab.set d t i v) = true := by
  unfold Tab.set
  split
  · exact Tab.wfFrom_erase d i h
  · rename_i hv
    exact Tab.wfFrom_insert d hv (Tab.wfFrom_erase d i h) (fun m hm => by cases hm) (fun e he => Tab.mem_erase_ne he)

end Tables

/-! ### Memory -/

/-- What a write of one byte does to every read. -/
theorem Memory.read_write (m : List Host.Cell) (a b : Nat) (v : Byte) :
    Memory.read (Memory.write m a v) b = if b = a then v else Memory.read m b := Tab.get_set memDefault m a b v

/-- A write of one byte keeps the canonical form. -/
theorem Memory.wf_write {m : List Host.Cell} (a : Nat) (v : Byte) (h : Memory.wf m = true) :
    Memory.wf (Memory.write m a v) = true := Tab.wf_set memDefault a v h

/-- A run of writes keeps the canonical form. -/
theorem Memory.wf_writeAll (bs : List (Nat × Byte)) {m : List Host.Cell} (h : Memory.wf m = true) :
    Memory.wf (Memory.writeAll m bs) = true := by
  induction bs generalizing m with
  | nil => exact h
  | cons b bs ih => exact ih (Memory.wf_write b.1 b.2 h)

@[simp] theorem Memory.writeAll_nil (m : List Host.Cell) : Memory.writeAll m [] = m := rfl

@[simp] theorem Memory.writeAll_cons (m : List Host.Cell) (b : Nat × Byte) (bs : List (Nat × Byte)) :
    Memory.writeAll m (b :: bs) = Memory.writeAll (Memory.write m b.1 b.2) bs := rfl

theorem Memory.writeAll_append (m : List Host.Cell) (bs cs : List (Nat × Byte)) :
    Memory.writeAll m (bs ++ cs) = Memory.writeAll (Memory.writeAll m bs) cs := by
  simp [Memory.writeAll, List.foldl_append]

/-- An address that a run of writes does not name reads as before. -/
theorem Memory.read_writeAll_other (m : List Host.Cell) (bs : List (Nat × Byte)) (a : Nat) (h : ∀ b ∈ bs, b.1 ≠ a) :
    Memory.read (Memory.writeAll m bs) a = Memory.read m a := by
  induction bs generalizing m with
  | nil => rfl
  | cons b bs ih =>
    rw [Memory.writeAll_cons, ih _ (fun c hc => h c (by simp [hc])), Memory.read_write, if_neg (Ne.symm (h b (by simp)))]

/-- In a run of writes to distinct addresses each address reads what was written to it. -/
theorem Memory.read_writeAll_mem (m : List Host.Cell) (bs : List (Nat × Byte)) (hn : (bs.map (fun b => b.1)).Nodup)
    (b : Nat × Byte) (hb : b ∈ bs) : Memory.read (Memory.writeAll m bs) b.1 = b.2 := by
  induction bs generalizing m with
  | nil => cases hb
  | cons c cs ih =>
    rw [Memory.writeAll_cons]
    have hn' : c.1 ∉ cs.map (fun b => b.1) ∧ (cs.map (fun b => b.1)).Nodup := by simpa using hn
    rcases List.mem_cons.mp hb with rfl | hb
    · have hother : ∀ e ∈ cs, e.1 ≠ b.1 := fun e he hc => hn'.1 (List.mem_map.mpr ⟨e, he, hc⟩)
      rw [Memory.read_writeAll_other _ _ _ hother, Memory.read_write, if_pos rfl]
    · exact ih _ hn'.2 hb

/-- `State.store` keeps the canonical form of memory. -/
theorem State.store_wf (s : State) (bs : List (Nat × Byte)) (h : Memory.wf s.mem = true) : Memory.wf (s.store bs).mem = true :=
  Memory.wf_writeAll bs h

/-- The memory right after reset is canonical. -/
theorem State.reset_mem_wf : Memory.wf State.reset.mem = true := rfl

end Sys2Proof.Machine
end

