-- ==== Sys2Proof/Laws/State.lean ====
section
/-! SUPPORT. The named updates of State, field by field: what each leaves as it was and what it writes. -/

namespace Sys2Proof.Machine

/-! ### Messages and memory -/

@[simp] theorem State.taken_pending (s : State) (x : Sender) (u : UnitId) : (s.taken x u).pending = s.pending := rfl
@[simp] theorem State.taken_mem (s : State) (x : Sender) (u : UnitId) : (s.taken x u).mem = s.mem := rfl
@[simp] theorem State.taken_mode (s : State) (x : Sender) (u : UnitId) : (s.taken x u).mode = s.mode := rfl
@[simp] theorem State.taken_resetCause (s : State) (x : Sender) (u : UnitId) : (s.taken x u).resetCause = s.resetCause := rfl
@[simp] theorem State.taken_configFault (s : State) (x : Sender) (u : UnitId) : (s.taken x u).configFault = s.configFault := rfl
@[simp] theorem State.taken_imageRevision (s : State) (x : Sender) (u : UnitId) : (s.taken x u).imageRevision = s.imageRevision := rfl
@[simp] theorem State.taken_clock (s : State) (x : Sender) (u : UnitId) : (s.taken x u).clock = s.clock := rfl
@[simp] theorem State.taken_cfg (s : State) (x : Sender) (u : UnitId) : (s.taken x u).cfg = s.cfg := rfl
@[simp] theorem State.taken_build (s : State) (x : Sender) (u : UnitId) : (s.taken x u).build = s.build := rfl
@[simp] theorem State.taken_port (s : State) (x : Sender) (u : UnitId) : (s.taken x u).port = s.port := rfl
@[simp] theorem State.taken_capture (s : State) (x : Sender) (u : UnitId) : (s.taken x u).capture = s.capture := rfl
@[simp] theorem State.taken_guard (s : State) (x : Sender) (u : UnitId) : (s.taken x u).guard = s.guard := rfl
@[simp] theorem State.taken_reflect (s : State) (x : Sender) (u : UnitId) : (s.taken x u).reflect = s.reflect := rfl
@[simp] theorem State.taken_live (s : State) (x : Sender) (u : UnitId) : (s.taken x u).live = s.live := rfl
@[simp] theorem State.taken_ring (s : State) (x : Sender) (u : UnitId) : (s.taken x u).ring = s.ring := rfl
@[simp] theorem State.taken_loops (s : State) (x : Sender) (u : UnitId) : (s.taken x u).loops = s.loops := rfl
@[simp] theorem State.taken_occ (s : State) (x : Sender) (u : UnitId) : (s.taken x u).occ = s.occ := rfl
@[simp] theorem State.taken_guid (s : State) (x : Sender) (u : UnitId) : (s.taken x u).guid = s.guid := rfl
@[simp] theorem State.taken_light (s : State) (x : Sender) (u : UnitId) : (s.taken x u).light = s.light := rfl
@[simp] theorem State.taken_air (s : State) (x : Sender) (u : UnitId) : (s.taken x u).air = s.air := rfl
@[simp] theorem State.taken_fan (s : State) (x : Sender) (u : UnitId) : (s.taken x u).fan = s.fan := rfl
@[simp] theorem State.taken_term (s : State) (x : Sender) (u : UnitId) : (s.taken x u).term = s.term := rfl
@[simp] theorem State.taken_free (s : State) (x : Sender) (u : UnitId) : (s.taken x u).free = s.free := rfl
@[simp] theorem State.taken_chan (s : State) (x : Sender) (u : UnitId) : (s.taken x u).chan = dropMsg x u s.chan := rfl
@[simp] theorem State.store_pending (s : State) (bs : List (Nat × Byte)) : (s.store bs).pending = s.pending := rfl
@[simp] theorem State.store_mode (s : State) (bs : List (Nat × Byte)) : (s.store bs).mode = s.mode := rfl
@[simp] theorem State.store_resetCause (s : State) (bs : List (Nat × Byte)) : (s.store bs).resetCause = s.resetCause := rfl
@[simp] theorem State.store_configFault (s : State) (bs : List (Nat × Byte)) : (s.store bs).configFault = s.configFault := rfl
@[simp] theorem State.store_imageRevision (s : State) (bs : List (Nat × Byte)) : (s.store bs).imageRevision = s.imageRevision := rfl
@[simp] theorem State.store_clock (s : State) (bs : List (Nat × Byte)) : (s.store bs).clock = s.clock := rfl
@[simp] theorem State.store_cfg (s : State) (bs : List (Nat × Byte)) : (s.store bs).cfg = s.cfg := rfl
@[simp] theorem State.store_build (s : State) (bs : List (Nat × Byte)) : (s.store bs).build = s.build := rfl
@[simp] theorem State.store_port (s : State) (bs : List (Nat × Byte)) : (s.store bs).port = s.port := rfl
@[simp] theorem State.store_capture (s : State) (bs : List (Nat × Byte)) : (s.store bs).capture = s.capture := rfl
@[simp] theorem State.store_guard (s : State) (bs : List (Nat × Byte)) : (s.store bs).guard = s.guard := rfl
@[simp] theorem State.store_reflect (s : State) (bs : List (Nat × Byte)) : (s.store bs).reflect = s.reflect := rfl
@[simp] theorem State.store_live (s : State) (bs : List (Nat × Byte)) : (s.store bs).live = s.live := rfl
@[simp] theorem State.store_ring (s : State) (bs : List (Nat × Byte)) : (s.store bs).ring = s.ring := rfl
@[simp] theorem State.store_loops (s : State) (bs : List (Nat × Byte)) : (s.store bs).loops = s.loops := rfl
@[simp] theorem State.store_occ (s : State) (bs : List (Nat × Byte)) : (s.store bs).occ = s.occ := rfl
@[simp] theorem State.store_guid (s : State) (bs : List (Nat × Byte)) : (s.store bs).guid = s.guid := rfl
@[simp] theorem State.store_light (s : State) (bs : List (Nat × Byte)) : (s.store bs).light = s.light := rfl
@[simp] theorem State.store_air (s : State) (bs : List (Nat × Byte)) : (s.store bs).air = s.air := rfl
@[simp] theorem State.store_fan (s : State) (bs : List (Nat × Byte)) : (s.store bs).fan = s.fan := rfl
@[simp] theorem State.store_term (s : State) (bs : List (Nat × Byte)) : (s.store bs).term = s.term := rfl
@[simp] theorem State.store_chan (s : State) (bs : List (Nat × Byte)) : (s.store bs).chan = s.chan := rfl
@[simp] theorem State.store_free (s : State) (bs : List (Nat × Byte)) : (s.store bs).free = s.free := rfl
@[simp] theorem State.store_mem (s : State) (bs : List (Nat × Byte)) : (s.store bs).mem = Memory.writeAll s.mem bs := rfl

/-! ### The host's beats -/

@[simp] theorem State.waits_pending (s : State) (b : Beat) (a : Access) : (s.waits b a).pending = s.pending := rfl
@[simp] theorem State.waits_mem (s : State) (b : Beat) (a : Access) : (s.waits b a).mem = s.mem := rfl
@[simp] theorem State.waits_mode (s : State) (b : Beat) (a : Access) : (s.waits b a).mode = s.mode := rfl
@[simp] theorem State.waits_resetCause (s : State) (b : Beat) (a : Access) : (s.waits b a).resetCause = s.resetCause := rfl
@[simp] theorem State.waits_configFault (s : State) (b : Beat) (a : Access) : (s.waits b a).configFault = s.configFault := rfl
@[simp] theorem State.waits_imageRevision (s : State) (b : Beat) (a : Access) : (s.waits b a).imageRevision = s.imageRevision := rfl
@[simp] theorem State.waits_clock (s : State) (b : Beat) (a : Access) : (s.waits b a).clock = s.clock := rfl
@[simp] theorem State.waits_cfg (s : State) (b : Beat) (a : Access) : (s.waits b a).cfg = s.cfg := rfl
@[simp] theorem State.waits_build (s : State) (b : Beat) (a : Access) : (s.waits b a).build = s.build := rfl
@[simp] theorem State.waits_capture (s : State) (b : Beat) (a : Access) : (s.waits b a).capture = s.capture := rfl
@[simp] theorem State.waits_guard (s : State) (b : Beat) (a : Access) : (s.waits b a).guard = s.guard := rfl
@[simp] theorem State.waits_reflect (s : State) (b : Beat) (a : Access) : (s.waits b a).reflect = s.reflect := rfl
@[simp] theorem State.waits_live (s : State) (b : Beat) (a : Access) : (s.waits b a).live = s.live := rfl
@[simp] theorem State.waits_ring (s : State) (b : Beat) (a : Access) : (s.waits b a).ring = s.ring := rfl
@[simp] theorem State.waits_loops (s : State) (b : Beat) (a : Access) : (s.waits b a).loops = s.loops := rfl
@[simp] theorem State.waits_occ (s : State) (b : Beat) (a : Access) : (s.waits b a).occ = s.occ := rfl
@[simp] theorem State.waits_guid (s : State) (b : Beat) (a : Access) : (s.waits b a).guid = s.guid := rfl
@[simp] theorem State.waits_light (s : State) (b : Beat) (a : Access) : (s.waits b a).light = s.light := rfl
@[simp] theorem State.waits_air (s : State) (b : Beat) (a : Access) : (s.waits b a).air = s.air := rfl
@[simp] theorem State.waits_fan (s : State) (b : Beat) (a : Access) : (s.waits b a).fan = s.fan := rfl
@[simp] theorem State.waits_term (s : State) (b : Beat) (a : Access) : (s.waits b a).term = s.term := rfl
@[simp] theorem State.waits_chan (s : State) (b : Beat) (a : Access) : (s.waits b a).chan = s.chan := rfl
@[simp] theorem State.waits_free (s : State) (b : Beat) (a : Access) : (s.waits b a).free = s.free := rfl
@[simp] theorem State.waits_port (s : State) (b : Beat) (a : Access) : (s.waits b a).port = { s.port with wait := some ⟨b, a⟩ } := rfl
@[simp] theorem State.stall_pending (s : State) : (s.stall).pending = s.pending := rfl
@[simp] theorem State.stall_mem (s : State) : (s.stall).mem = s.mem := rfl
@[simp] theorem State.stall_mode (s : State) : (s.stall).mode = s.mode := rfl
@[simp] theorem State.stall_resetCause (s : State) : (s.stall).resetCause = s.resetCause := rfl
@[simp] theorem State.stall_configFault (s : State) : (s.stall).configFault = s.configFault := rfl
@[simp] theorem State.stall_imageRevision (s : State) : (s.stall).imageRevision = s.imageRevision := rfl
@[simp] theorem State.stall_clock (s : State) : (s.stall).clock = s.clock := rfl
@[simp] theorem State.stall_cfg (s : State) : (s.stall).cfg = s.cfg := rfl
@[simp] theorem State.stall_build (s : State) : (s.stall).build = s.build := rfl
@[simp] theorem State.stall_capture (s : State) : (s.stall).capture = s.capture := rfl
@[simp] theorem State.stall_guard (s : State) : (s.stall).guard = s.guard := rfl
@[simp] theorem State.stall_reflect (s : State) : (s.stall).reflect = s.reflect := rfl
@[simp] theorem State.stall_live (s : State) : (s.stall).live = s.live := rfl
@[simp] theorem State.stall_ring (s : State) : (s.stall).ring = s.ring := rfl
@[simp] theorem State.stall_loops (s : State) : (s.stall).loops = s.loops := rfl
@[simp] theorem State.stall_occ (s : State) : (s.stall).occ = s.occ := rfl
@[simp] theorem State.stall_guid (s : State) : (s.stall).guid = s.guid := rfl
@[simp] theorem State.stall_light (s : State) : (s.stall).light = s.light := rfl
@[simp] theorem State.stall_air (s : State) : (s.stall).air = s.air := rfl
@[simp] theorem State.stall_fan (s : State) : (s.stall).fan = s.fan := rfl
@[simp] theorem State.stall_term (s : State) : (s.stall).term = s.term := rfl
@[simp] theorem State.stall_chan (s : State) : (s.stall).chan = s.chan := rfl
@[simp] theorem State.stall_free (s : State) : (s.stall).free = s.free := rfl
@[simp] theorem State.stall_port (s : State) : (s.stall).port = { s.port with grant := false, single := true } := rfl
@[simp] theorem State.beginBeat_pending (s : State) (b : Beat) : (s.beginBeat b).pending = s.pending := by unfold State.beginBeat; split <;> rfl
@[simp] theorem State.beginBeat_mem (s : State) (b : Beat) : (s.beginBeat b).mem = s.mem := by unfold State.beginBeat; split <;> rfl
@[simp] theorem State.beginBeat_mode (s : State) (b : Beat) : (s.beginBeat b).mode = s.mode := by unfold State.beginBeat; split <;> rfl
@[simp] theorem State.beginBeat_resetCause (s : State) (b : Beat) : (s.beginBeat b).resetCause = s.resetCause := by unfold State.beginBeat; split <;> rfl
@[simp] theorem State.beginBeat_configFault (s : State) (b : Beat) : (s.beginBeat b).configFault = s.configFault := by unfold State.beginBeat; split <;> rfl
@[simp] theorem State.beginBeat_imageRevision (s : State) (b : Beat) : (s.beginBeat b).imageRevision = s.imageRevision := by unfold State.beginBeat; split <;> rfl
@[simp] theorem State.beginBeat_clock (s : State) (b : Beat) : (s.beginBeat b).clock = s.clock := by unfold State.beginBeat; split <;> rfl
@[simp] theorem State.beginBeat_cfg (s : State) (b : Beat) : (s.beginBeat b).cfg = s.cfg := by unfold State.beginBeat; split <;> rfl
@[simp] theorem State.beginBeat_build (s : State) (b : Beat) : (s.beginBeat b).build = s.build := by unfold State.beginBeat; split <;> rfl
@[simp] theorem State.beginBeat_capture (s : State) (b : Beat) : (s.beginBeat b).capture = s.capture := by unfold State.beginBeat; split <;> rfl
@[simp] theorem State.beginBeat_guard (s : State) (b : Beat) : (s.beginBeat b).guard = s.guard := by unfold State.beginBeat; split <;> rfl
@[simp] theorem State.beginBeat_reflect (s : State) (b : Beat) : (s.beginBeat b).reflect = s.reflect := by unfold State.beginBeat; split <;> rfl
@[simp] theorem State.beginBeat_ring (s : State) (b : Beat) : (s.beginBeat b).ring = s.ring := by unfold State.beginBeat; split <;> rfl
@[simp] theorem State.beginBeat_loops (s : State) (b : Beat) : (s.beginBeat b).loops = s.loops := by unfold State.beginBeat; split <;> rfl
@[simp] theorem State.beginBeat_occ (s : State) (b : Beat) : (s.beginBeat b).occ = s.occ := by unfold State.beginBeat; split <;> rfl
@[simp] theorem State.beginBeat_guid (s : State) (b : Beat) : (s.beginBeat b).guid = s.guid := by unfold State.beginBeat; split <;> rfl
@[simp] theorem State.beginBeat_light (s : State) (b : Beat) : (s.beginBeat b).light = s.light := by unfold State.beginBeat; split <;> rfl
@[simp] theorem State.beginBeat_air (s : State) (b : Beat) : (s.beginBeat b).air = s.air := by unfold State.beginBeat; split <;> rfl
@[simp] theorem State.beginBeat_fan (s : State) (b : Beat) : (s.beginBeat b).fan = s.fan := by unfold State.beginBeat; split <;> rfl
@[simp] theorem State.beginBeat_term (s : State) (b : Beat) : (s.beginBeat b).term = s.term := by unfold State.beginBeat; split <;> rfl
@[simp] theorem State.beginBeat_chan (s : State) (b : Beat) : (s.beginBeat b).chan = s.chan := by unfold State.beginBeat; split <;> rfl
@[simp] theorem State.beginBeat_free (s : State) (b : Beat) : (s.beginBeat b).free = s.free := by unfold State.beginBeat; split <;> rfl
@[simp] theorem State.endBeat_pending (s : State) (b : Beat) : (s.endBeat b).pending = s.pending := by unfold State.endBeat; split <;> rfl
@[simp] theorem State.endBeat_mem (s : State) (b : Beat) : (s.endBeat b).mem = s.mem := by unfold State.endBeat; split <;> rfl
@[simp] theorem State.endBeat_mode (s : State) (b : Beat) : (s.endBeat b).mode = s.mode := by unfold State.endBeat; split <;> rfl
@[simp] theorem State.endBeat_resetCause (s : State) (b : Beat) : (s.endBeat b).resetCause = s.resetCause := by unfold State.endBeat; split <;> rfl
@[simp] theorem State.endBeat_configFault (s : State) (b : Beat) : (s.endBeat b).configFault = s.configFault := by unfold State.endBeat; split <;> rfl
@[simp] theorem State.endBeat_imageRevision (s : State) (b : Beat) : (s.endBeat b).imageRevision = s.imageRevision := by unfold State.endBeat; split <;> rfl
@[simp] theorem State.endBeat_clock (s : State) (b : Beat) : (s.endBeat b).clock = s.clock := by unfold State.endBeat; split <;> rfl
@[simp] theorem State.endBeat_cfg (s : State) (b : Beat) : (s.endBeat b).cfg = s.cfg := by unfold State.endBeat; split <;> rfl
@[simp] theorem State.endBeat_build (s : State) (b : Beat) : (s.endBeat b).build = s.build := by unfold State.endBeat; split <;> rfl
@[simp] theorem State.endBeat_capture (s : State) (b : Beat) : (s.endBeat b).capture = s.capture := by unfold State.endBeat; split <;> rfl
@[simp] theorem State.endBeat_guard (s : State) (b : Beat) : (s.endBeat b).guard = s.guard := by unfold State.endBeat; split <;> rfl
@[simp] theorem State.endBeat_reflect (s : State) (b : Beat) : (s.endBeat b).reflect = s.reflect := by unfold State.endBeat; split <;> rfl
@[simp] theorem State.endBeat_live (s : State) (b : Beat) : (s.endBeat b).live = s.live := by unfold State.endBeat; split <;> rfl
@[simp] theorem State.endBeat_ring (s : State) (b : Beat) : (s.endBeat b).ring = s.ring := by unfold State.endBeat; split <;> rfl
@[simp] theorem State.endBeat_loops (s : State) (b : Beat) : (s.endBeat b).loops = s.loops := by unfold State.endBeat; split <;> rfl
@[simp] theorem State.endBeat_occ (s : State) (b : Beat) : (s.endBeat b).occ = s.occ := by unfold State.endBeat; split <;> rfl
@[simp] theorem State.endBeat_guid (s : State) (b : Beat) : (s.endBeat b).guid = s.guid := by unfold State.endBeat; split <;> rfl
@[simp] theorem State.endBeat_light (s : State) (b : Beat) : (s.endBeat b).light = s.light := by unfold State.endBeat; split <;> rfl
@[simp] theorem State.endBeat_air (s : State) (b : Beat) : (s.endBeat b).air = s.air := by unfold State.endBeat; split <;> rfl
@[simp] theorem State.endBeat_fan (s : State) (b : Beat) : (s.endBeat b).fan = s.fan := by unfold State.endBeat; split <;> rfl
@[simp] theorem State.endBeat_term (s : State) (b : Beat) : (s.endBeat b).term = s.term := by unfold State.endBeat; split <;> rfl
@[simp] theorem State.endBeat_chan (s : State) (b : Beat) : (s.endBeat b).chan = s.chan := by unfold State.endBeat; split <;> rfl
@[simp] theorem State.endBeat_free (s : State) (b : Beat) : (s.endBeat b).free = s.free := by unfold State.endBeat; split <;> rfl
@[simp] theorem State.noAccess_pending (s : State) (b : Beat) : (s.noAccess b).pending = s.pending := by simp [State.noAccess]
@[simp] theorem State.noAccess_mem (s : State) (b : Beat) : (s.noAccess b).mem = s.mem := by simp [State.noAccess]
@[simp] theorem State.noAccess_mode (s : State) (b : Beat) : (s.noAccess b).mode = s.mode := by simp [State.noAccess]
@[simp] theorem State.noAccess_resetCause (s : State) (b : Beat) : (s.noAccess b).resetCause = s.resetCause := by simp [State.noAccess]
@[simp] theorem State.noAccess_configFault (s : State) (b : Beat) : (s.noAccess b).configFault = s.configFault := by simp [State.noAccess]
@[simp] theorem State.noAccess_imageRevision (s : State) (b : Beat) : (s.noAccess b).imageRevision = s.imageRevision := by simp [State.noAccess]
@[simp] theorem State.noAccess_clock (s : State) (b : Beat) : (s.noAccess b).clock = s.clock := by simp [State.noAccess]
@[simp] theorem State.noAccess_cfg (s : State) (b : Beat) : (s.noAccess b).cfg = s.cfg := by simp [State.noAccess]
@[simp] theorem State.noAccess_build (s : State) (b : Beat) : (s.noAccess b).build = s.build := by simp [State.noAccess]
@[simp] theorem State.noAccess_capture (s : State) (b : Beat) : (s.noAccess b).capture = s.capture := by simp [State.noAccess]
@[simp] theorem State.noAccess_guard (s : State) (b : Beat) : (s.noAccess b).guard = s.guard := by simp [State.noAccess]
@[simp] theorem State.noAccess_reflect (s : State) (b : Beat) : (s.noAccess b).reflect = s.reflect := by simp [State.noAccess]
@[simp] theorem State.noAccess_live (s : State) (b : Beat) : (s.noAccess b).live = s.live := by simp [State.noAccess]
@[simp] theorem State.noAccess_ring (s : State) (b : Beat) : (s.noAccess b).ring = s.ring := by simp [State.noAccess]
@[simp] theorem State.noAccess_loops (s : State) (b : Beat) : (s.noAccess b).loops = s.loops := by simp [State.noAccess]
@[simp] theorem State.noAccess_occ (s : State) (b : Beat) : (s.noAccess b).occ = s.occ := by simp [State.noAccess]
@[simp] theorem State.noAccess_guid (s : State) (b : Beat) : (s.noAccess b).guid = s.guid := by simp [State.noAccess]
@[simp] theorem State.noAccess_light (s : State) (b : Beat) : (s.noAccess b).light = s.light := by simp [State.noAccess]
@[simp] theorem State.noAccess_air (s : State) (b : Beat) : (s.noAccess b).air = s.air := by simp [State.noAccess]
@[simp] theorem State.noAccess_fan (s : State) (b : Beat) : (s.noAccess b).fan = s.fan := by simp [State.noAccess]
@[simp] theorem State.noAccess_term (s : State) (b : Beat) : (s.noAccess b).term = s.term := by simp [State.noAccess]
@[simp] theorem State.noAccess_chan (s : State) (b : Beat) : (s.noAccess b).chan = s.chan := by simp [State.noAccess]
@[simp] theorem State.noAccess_free (s : State) (b : Beat) : (s.noAccess b).free = s.free := by simp [State.noAccess]
@[simp] theorem State.dropHeld_pending (s : State) : (s.dropHeld).pending = s.pending := by unfold State.dropHeld; split <;> rfl
@[simp] theorem State.dropHeld_mem (s : State) : (s.dropHeld).mem = s.mem := by unfold State.dropHeld; split <;> rfl
@[simp] theorem State.dropHeld_mode (s : State) : (s.dropHeld).mode = s.mode := by unfold State.dropHeld; split <;> rfl
@[simp] theorem State.dropHeld_resetCause (s : State) : (s.dropHeld).resetCause = s.resetCause := by unfold State.dropHeld; split <;> rfl
@[simp] theorem State.dropHeld_configFault (s : State) : (s.dropHeld).configFault = s.configFault := by unfold State.dropHeld; split <;> rfl
@[simp] theorem State.dropHeld_imageRevision (s : State) : (s.dropHeld).imageRevision = s.imageRevision := by unfold State.dropHeld; split <;> rfl
@[simp] theorem State.dropHeld_clock (s : State) : (s.dropHeld).clock = s.clock := by unfold State.dropHeld; split <;> rfl
@[simp] theorem State.dropHeld_cfg (s : State) : (s.dropHeld).cfg = s.cfg := by unfold State.dropHeld; split <;> rfl
@[simp] theorem State.dropHeld_build (s : State) : (s.dropHeld).build = s.build := by unfold State.dropHeld; split <;> rfl
@[simp] theorem State.dropHeld_port (s : State) : (s.dropHeld).port = s.port := by unfold State.dropHeld; split <;> rfl
@[simp] theorem State.dropHeld_guard (s : State) : (s.dropHeld).guard = s.guard := by unfold State.dropHeld; split <;> rfl
@[simp] theorem State.dropHeld_reflect (s : State) : (s.dropHeld).reflect = s.reflect := by unfold State.dropHeld; split <;> rfl
@[simp] theorem State.dropHeld_ring (s : State) : (s.dropHeld).ring = s.ring := by unfold State.dropHeld; split <;> rfl
@[simp] theorem State.dropHeld_loops (s : State) : (s.dropHeld).loops = s.loops := by unfold State.dropHeld; split <;> rfl
@[simp] theorem State.dropHeld_occ (s : State) : (s.dropHeld).occ = s.occ := by unfold State.dropHeld; split <;> rfl
@[simp] theorem State.dropHeld_guid (s : State) : (s.dropHeld).guid = s.guid := by unfold State.dropHeld; split <;> rfl
@[simp] theorem State.dropHeld_light (s : State) : (s.dropHeld).light = s.light := by unfold State.dropHeld; split <;> rfl
@[simp] theorem State.dropHeld_air (s : State) : (s.dropHeld).air = s.air := by unfold State.dropHeld; split <;> rfl
@[simp] theorem State.dropHeld_fan (s : State) : (s.dropHeld).fan = s.fan := by unfold State.dropHeld; split <;> rfl
@[simp] theorem State.dropHeld_term (s : State) : (s.dropHeld).term = s.term := by unfold State.dropHeld; split <;> rfl
@[simp] theorem State.dropHeld_chan (s : State) : (s.dropHeld).chan = s.chan := by unfold State.dropHeld; split <;> rfl
@[simp] theorem State.dropHeld_free (s : State) : (s.dropHeld).free = s.free := by unfold State.dropHeld; split <;> rfl
@[simp] theorem State.takeSnapshot_pending (s : State) (b : Beat) : (s.takeSnapshot b).pending = s.pending := by unfold State.takeSnapshot; split <;> rfl
@[simp] theorem State.takeSnapshot_mem (s : State) (b : Beat) : (s.takeSnapshot b).mem = s.mem := by unfold State.takeSnapshot; split <;> rfl
@[simp] theorem State.takeSnapshot_mode (s : State) (b : Beat) : (s.takeSnapshot b).mode = s.mode := by unfold State.takeSnapshot; split <;> rfl
@[simp] theorem State.takeSnapshot_resetCause (s : State) (b : Beat) : (s.takeSnapshot b).resetCause = s.resetCause := by unfold State.takeSnapshot; split <;> rfl
@[simp] theorem State.takeSnapshot_configFault (s : State) (b : Beat) : (s.takeSnapshot b).configFault = s.configFault := by unfold State.takeSnapshot; split <;> rfl
@[simp] theorem State.takeSnapshot_imageRevision (s : State) (b : Beat) : (s.takeSnapshot b).imageRevision = s.imageRevision := by unfold State.takeSnapshot; split <;> rfl
@[simp] theorem State.takeSnapshot_clock (s : State) (b : Beat) : (s.takeSnapshot b).clock = s.clock := by unfold State.takeSnapshot; split <;> rfl
@[simp] theorem State.takeSnapshot_cfg (s : State) (b : Beat) : (s.takeSnapshot b).cfg = s.cfg := by unfold State.takeSnapshot; split <;> rfl
@[simp] theorem State.takeSnapshot_build (s : State) (b : Beat) : (s.takeSnapshot b).build = s.build := by unfold State.takeSnapshot; split <;> rfl
@[simp] theorem State.takeSnapshot_port (s : State) (b : Beat) : (s.takeSnapshot b).port = s.port := by unfold State.takeSnapshot; split <;> rfl
@[simp] theorem State.takeSnapshot_capture (s : State) (b : Beat) : (s.takeSnapshot b).capture = s.capture := by unfold State.takeSnapshot; split <;> rfl
@[simp] theorem State.takeSnapshot_guard (s : State) (b : Beat) : (s.takeSnapshot b).guard = s.guard := by unfold State.takeSnapshot; split <;> rfl
@[simp] theorem State.takeSnapshot_reflect (s : State) (b : Beat) : (s.takeSnapshot b).reflect = s.reflect := by unfold State.takeSnapshot; split <;> rfl
@[simp] theorem State.takeSnapshot_ring (s : State) (b : Beat) : (s.takeSnapshot b).ring = s.ring := by unfold State.takeSnapshot; split <;> rfl
@[simp] theorem State.takeSnapshot_loops (s : State) (b : Beat) : (s.takeSnapshot b).loops = s.loops := by unfold State.takeSnapshot; split <;> rfl
@[simp] theorem State.takeSnapshot_occ (s : State) (b : Beat) : (s.takeSnapshot b).occ = s.occ := by unfold State.takeSnapshot; split <;> rfl
@[simp] theorem State.takeSnapshot_guid (s : State) (b : Beat) : (s.takeSnapshot b).guid = s.guid := by unfold State.takeSnapshot; split <;> rfl
@[simp] theorem State.takeSnapshot_light (s : State) (b : Beat) : (s.takeSnapshot b).light = s.light := by unfold State.takeSnapshot; split <;> rfl
@[simp] theorem State.takeSnapshot_air (s : State) (b : Beat) : (s.takeSnapshot b).air = s.air := by unfold State.takeSnapshot; split <;> rfl
@[simp] theorem State.takeSnapshot_fan (s : State) (b : Beat) : (s.takeSnapshot b).fan = s.fan := by unfold State.takeSnapshot; split <;> rfl
@[simp] theorem State.takeSnapshot_term (s : State) (b : Beat) : (s.takeSnapshot b).term = s.term := by unfold State.takeSnapshot; split <;> rfl
@[simp] theorem State.takeSnapshot_chan (s : State) (b : Beat) : (s.takeSnapshot b).chan = s.chan := by unfold State.takeSnapshot; split <;> rfl
@[simp] theorem State.takeSnapshot_free (s : State) (b : Beat) : (s.takeSnapshot b).free = s.free := by unfold State.takeSnapshot; split <;> rfl
@[simp] theorem State.liveBeat_pending (s : State) (b : Beat) : (s.liveBeat b).pending = s.pending := by simp [State.liveBeat]
@[simp] theorem State.liveBeat_mem (s : State) (b : Beat) : (s.liveBeat b).mem = s.mem := by simp [State.liveBeat]
@[simp] theorem State.liveBeat_mode (s : State) (b : Beat) : (s.liveBeat b).mode = s.mode := by simp [State.liveBeat]
@[simp] theorem State.liveBeat_resetCause (s : State) (b : Beat) : (s.liveBeat b).resetCause = s.resetCause := by simp [State.liveBeat]
@[simp] theorem State.liveBeat_configFault (s : State) (b : Beat) : (s.liveBeat b).configFault = s.configFault := by simp [State.liveBeat]
@[simp] theorem State.liveBeat_imageRevision (s : State) (b : Beat) : (s.liveBeat b).imageRevision = s.imageRevision := by simp [State.liveBeat]
@[simp] theorem State.liveBeat_clock (s : State) (b : Beat) : (s.liveBeat b).clock = s.clock := by simp [State.liveBeat]
@[simp] theorem State.liveBeat_cfg (s : State) (b : Beat) : (s.liveBeat b).cfg = s.cfg := by simp [State.liveBeat]
@[simp] theorem State.liveBeat_build (s : State) (b : Beat) : (s.liveBeat b).build = s.build := by simp [State.liveBeat]
@[simp] theorem State.liveBeat_guard (s : State) (b : Beat) : (s.liveBeat b).guard = s.guard := by simp [State.liveBeat]
@[simp] theorem State.liveBeat_reflect (s : State) (b : Beat) : (s.liveBeat b).reflect = s.reflect := by simp [State.liveBeat]
@[simp] theorem State.liveBeat_ring (s : State) (b : Beat) : (s.liveBeat b).ring = s.ring := by simp [State.liveBeat]
@[simp] theorem State.liveBeat_loops (s : State) (b : Beat) : (s.liveBeat b).loops = s.loops := by simp [State.liveBeat]
@[simp] theorem State.liveBeat_occ (s : State) (b : Beat) : (s.liveBeat b).occ = s.occ := by simp [State.liveBeat]
@[simp] theorem State.liveBeat_guid (s : State) (b : Beat) : (s.liveBeat b).guid = s.guid := by simp [State.liveBeat]
@[simp] theorem State.liveBeat_light (s : State) (b : Beat) : (s.liveBeat b).light = s.light := by simp [State.liveBeat]
@[simp] theorem State.liveBeat_air (s : State) (b : Beat) : (s.liveBeat b).air = s.air := by simp [State.liveBeat]
@[simp] theorem State.liveBeat_fan (s : State) (b : Beat) : (s.liveBeat b).fan = s.fan := by simp [State.liveBeat]
@[simp] theorem State.liveBeat_term (s : State) (b : Beat) : (s.liveBeat b).term = s.term := by simp [State.liveBeat]
@[simp] theorem State.liveBeat_chan (s : State) (b : Beat) : (s.liveBeat b).chan = s.chan := by simp [State.liveBeat]
@[simp] theorem State.liveBeat_free (s : State) (b : Beat) : (s.liveBeat b).free = s.free := by simp [State.liveBeat]

/-! ### The Live Window's commands -/

@[simp] theorem State.result_pending (s : State) (code : Byte) (r : Nat) : (s.result code r).pending = s.pending := rfl
@[simp] theorem State.result_mem (s : State) (code : Byte) (r : Nat) : (s.result code r).mem = s.mem := rfl
@[simp] theorem State.result_mode (s : State) (code : Byte) (r : Nat) : (s.result code r).mode = s.mode := rfl
@[simp] theorem State.result_resetCause (s : State) (code : Byte) (r : Nat) : (s.result code r).resetCause = s.resetCause := rfl
@[simp] theorem State.result_configFault (s : State) (code : Byte) (r : Nat) : (s.result code r).configFault = s.configFault := rfl
@[simp] theorem State.result_imageRevision (s : State) (code : Byte) (r : Nat) : (s.result code r).imageRevision = s.imageRevision := rfl
@[simp] theorem State.result_clock (s : State) (code : Byte) (r : Nat) : (s.result code r).clock = s.clock := rfl
@[simp] theorem State.result_cfg (s : State) (code : Byte) (r : Nat) : (s.result code r).cfg = s.cfg := rfl
@[simp] theorem State.result_build (s : State) (code : Byte) (r : Nat) : (s.result code r).build = s.build := rfl
@[simp] theorem State.result_port (s : State) (code : Byte) (r : Nat) : (s.result code r).port = s.port := rfl
@[simp] theorem State.result_capture (s : State) (code : Byte) (r : Nat) : (s.result code r).capture = s.capture := rfl
@[simp] theorem State.result_guard (s : State) (code : Byte) (r : Nat) : (s.result code r).guard = s.guard := rfl
@[simp] theorem State.result_reflect (s : State) (code : Byte) (r : Nat) : (s.result code r).reflect = s.reflect := rfl
@[simp] theorem State.result_ring (s : State) (code : Byte) (r : Nat) : (s.result code r).ring = s.ring := rfl
@[simp] theorem State.result_loops (s : State) (code : Byte) (r : Nat) : (s.result code r).loops = s.loops := rfl
@[simp] theorem State.result_occ (s : State) (code : Byte) (r : Nat) : (s.result code r).occ = s.occ := rfl
@[simp] theorem State.result_guid (s : State) (code : Byte) (r : Nat) : (s.result code r).guid = s.guid := rfl
@[simp] theorem State.result_light (s : State) (code : Byte) (r : Nat) : (s.result code r).light = s.light := rfl
@[simp] theorem State.result_air (s : State) (code : Byte) (r : Nat) : (s.result code r).air = s.air := rfl
@[simp] theorem State.result_fan (s : State) (code : Byte) (r : Nat) : (s.result code r).fan = s.fan := rfl
@[simp] theorem State.result_term (s : State) (code : Byte) (r : Nat) : (s.result code r).term = s.term := rfl
@[simp] theorem State.result_chan (s : State) (code : Byte) (r : Nat) : (s.result code r).chan = s.chan := rfl
@[simp] theorem State.result_free (s : State) (code : Byte) (r : Nat) : (s.result code r).free = s.free := rfl
@[simp] theorem State.result_live (s : State) (code : Byte) (r : Nat) : (s.result code r).live = { s.live with result := byte1 r, resultCmd := code } := rfl

/-! ### Effects of a unit outside its own state -/

@[simp] theorem State.effect_pending (s : State) (e : Eff) : (s.effect e).pending = s.pending := by cases e <;> rfl
@[simp] theorem State.effect_mem (s : State) (e : Eff) : (s.effect e).mem = s.mem := by cases e <;> rfl
@[simp] theorem State.effect_mode (s : State) (e : Eff) : (s.effect e).mode = s.mode := by cases e <;> rfl
@[simp] theorem State.effect_resetCause (s : State) (e : Eff) : (s.effect e).resetCause = s.resetCause := by cases e <;> rfl
@[simp] theorem State.effect_configFault (s : State) (e : Eff) : (s.effect e).configFault = s.configFault := by cases e <;> rfl
@[simp] theorem State.effect_imageRevision (s : State) (e : Eff) : (s.effect e).imageRevision = s.imageRevision := by cases e <;> rfl
@[simp] theorem State.effect_clock (s : State) (e : Eff) : (s.effect e).clock = s.clock := by cases e <;> rfl
@[simp] theorem State.effect_cfg (s : State) (e : Eff) : (s.effect e).cfg = s.cfg := by cases e <;> rfl
@[simp] theorem State.effect_build (s : State) (e : Eff) : (s.effect e).build = s.build := by cases e <;> rfl
@[simp] theorem State.effect_port (s : State) (e : Eff) : (s.effect e).port = s.port := by cases e <;> rfl
@[simp] theorem State.effect_capture (s : State) (e : Eff) : (s.effect e).capture = s.capture := by cases e <;> rfl
@[simp] theorem State.effect_ring (s : State) (e : Eff) : (s.effect e).ring = s.ring := by cases e <;> rfl
@[simp] theorem State.effect_occ (s : State) (e : Eff) : (s.effect e).occ = s.occ := by cases e <;> rfl
@[simp] theorem State.effect_guid (s : State) (e : Eff) : (s.effect e).guid = s.guid := by cases e <;> rfl
@[simp] theorem State.effect_light (s : State) (e : Eff) : (s.effect e).light = s.light := by cases e <;> rfl
@[simp] theorem State.effect_air (s : State) (e : Eff) : (s.effect e).air = s.air := by cases e <;> rfl
@[simp] theorem State.effect_fan (s : State) (e : Eff) : (s.effect e).fan = s.fan := by cases e <;> rfl
@[simp] theorem State.effect_term (s : State) (e : Eff) : (s.effect e).term = s.term := by cases e <;> rfl
@[simp] theorem State.effect_free (s : State) (e : Eff) : (s.effect e).free = s.free := by cases e <;> rfl
@[simp] theorem State.emit_pending (s : State) (es : List Eff) : (s.emit es).pending = s.pending := by
  unfold State.emit; induction es generalizing s with
  | nil => rfl
  | cons e es ih => rw [List.foldl_cons, ih]; simp
@[simp] theorem State.emit_mem (s : State) (es : List Eff) : (s.emit es).mem = s.mem := by
  unfold State.emit; induction es generalizing s with
  | nil => rfl
  | cons e es ih => rw [List.foldl_cons, ih]; simp
@[simp] theorem State.emit_mode (s : State) (es : List Eff) : (s.emit es).mode = s.mode := by
  unfold State.emit; induction es generalizing s with
  | nil => rfl
  | cons e es ih => rw [List.foldl_cons, ih]; simp
@[simp] theorem State.emit_resetCause (s : State) (es : List Eff) : (s.emit es).resetCause = s.resetCause := by
  unfold State.emit; induction es generalizing s with
  | nil => rfl
  | cons e es ih => rw [List.foldl_cons, ih]; simp
@[simp] theorem State.emit_configFault (s : State) (es : List Eff) : (s.emit es).configFault = s.configFault := by
  unfold State.emit; induction es generalizing s with
  | nil => rfl
  | cons e es ih => rw [List.foldl_cons, ih]; simp
@[simp] theorem State.emit_imageRevision (s : State) (es : List Eff) : (s.emit es).imageRevision = s.imageRevision := by
  unfold State.emit; induction es generalizing s with
  | nil => rfl
  | cons e es ih => rw [List.foldl_cons, ih]; simp
@[simp] theorem State.emit_clock (s : State) (es : List Eff) : (s.emit es).clock = s.clock := by
  unfold State.emit; induction es generalizing s with
  | nil => rfl
  | cons e es ih => rw [List.foldl_cons, ih]; simp
@[simp] theorem State.emit_cfg (s : State) (es : List Eff) : (s.emit es).cfg = s.cfg := by
  unfold State.emit; induction es generalizing s with
  | nil => rfl
  | cons e es ih => rw [List.foldl_cons, ih]; simp
@[simp] theorem State.emit_build (s : State) (es : List Eff) : (s.emit es).build = s.build := by
  unfold State.emit; induction es generalizing s with
  | nil => rfl
  | cons e es ih => rw [List.foldl_cons, ih]; simp
@[simp] theorem State.emit_port (s : State) (es : List Eff) : (s.emit es).port = s.port := by
  unfold State.emit; induction es generalizing s with
  | nil => rfl
  | cons e es ih => rw [List.foldl_cons, ih]; simp
@[simp] theorem State.emit_capture (s : State) (es : List Eff) : (s.emit es).capture = s.capture := by
  unfold State.emit; induction es generalizing s with
  | nil => rfl
  | cons e es ih => rw [List.foldl_cons, ih]; simp
@[simp] theorem State.emit_ring (s : State) (es : List Eff) : (s.emit es).ring = s.ring := by
  unfold State.emit; induction es generalizing s with
  | nil => rfl
  | cons e es ih => rw [List.foldl_cons, ih]; simp
@[simp] theorem State.emit_occ (s : State) (es : List Eff) : (s.emit es).occ = s.occ := by
  unfold State.emit; induction es generalizing s with
  | nil => rfl
  | cons e es ih => rw [List.foldl_cons, ih]; simp
@[simp] theorem State.emit_guid (s : State) (es : List Eff) : (s.emit es).guid = s.guid := by
  unfold State.emit; induction es generalizing s with
  | nil => rfl
  | cons e es ih => rw [List.foldl_cons, ih]; simp
@[simp] theorem State.emit_light (s : State) (es : List Eff) : (s.emit es).light = s.light := by
  unfold State.emit; induction es generalizing s with
  | nil => rfl
  | cons e es ih => rw [List.foldl_cons, ih]; simp
@[simp] theorem State.emit_air (s : State) (es : List Eff) : (s.emit es).air = s.air := by
  unfold State.emit; induction es generalizing s with
  | nil => rfl
  | cons e es ih => rw [List.foldl_cons, ih]; simp
@[simp] theorem State.emit_fan (s : State) (es : List Eff) : (s.emit es).fan = s.fan := by
  unfold State.emit; induction es generalizing s with
  | nil => rfl
  | cons e es ih => rw [List.foldl_cons, ih]; simp
@[simp] theorem State.emit_term (s : State) (es : List Eff) : (s.emit es).term = s.term := by
  unfold State.emit; induction es generalizing s with
  | nil => rfl
  | cons e es ih => rw [List.foldl_cons, ih]; simp
@[simp] theorem State.emit_free (s : State) (es : List Eff) : (s.emit es).free = s.free := by
  unfold State.emit; induction es generalizing s with
  | nil => rfl
  | cons e es ih => rw [List.foldl_cons, ih]; simp
@[simp] theorem State.withOcc_pending (s : State) (a : OccAcc) : (s.withOcc a).pending = s.pending := by simp [State.withOcc]
@[simp] theorem State.withOcc_mem (s : State) (a : OccAcc) : (s.withOcc a).mem = s.mem := by simp [State.withOcc]
@[simp] theorem State.withOcc_mode (s : State) (a : OccAcc) : (s.withOcc a).mode = s.mode := by simp [State.withOcc]
@[simp] theorem State.withOcc_resetCause (s : State) (a : OccAcc) : (s.withOcc a).resetCause = s.resetCause := by simp [State.withOcc]
@[simp] theorem State.withOcc_configFault (s : State) (a : OccAcc) : (s.withOcc a).configFault = s.configFault := by simp [State.withOcc]
@[simp] theorem State.withOcc_imageRevision (s : State) (a : OccAcc) : (s.withOcc a).imageRevision = s.imageRevision := by simp [State.withOcc]
@[simp] theorem State.withOcc_clock (s : State) (a : OccAcc) : (s.withOcc a).clock = s.clock := by simp [State.withOcc]
@[simp] theorem State.withOcc_cfg (s : State) (a : OccAcc) : (s.withOcc a).cfg = s.cfg := by simp [State.withOcc]
@[simp] theorem State.withOcc_build (s : State) (a : OccAcc) : (s.withOcc a).build = s.build := by simp [State.withOcc]
@[simp] theorem State.withOcc_port (s : State) (a : OccAcc) : (s.withOcc a).port = s.port := by simp [State.withOcc]
@[simp] theorem State.withOcc_capture (s : State) (a : OccAcc) : (s.withOcc a).capture = s.capture := by simp [State.withOcc]
@[simp] theorem State.withOcc_ring (s : State) (a : OccAcc) : (s.withOcc a).ring = s.ring := by simp [State.withOcc]
@[simp] theorem State.withOcc_guid (s : State) (a : OccAcc) : (s.withOcc a).guid = s.guid := by simp [State.withOcc]
@[simp] theorem State.withOcc_light (s : State) (a : OccAcc) : (s.withOcc a).light = s.light := by simp [State.withOcc]
@[simp] theorem State.withOcc_air (s : State) (a : OccAcc) : (s.withOcc a).air = s.air := by simp [State.withOcc]
@[simp] theorem State.withOcc_fan (s : State) (a : OccAcc) : (s.withOcc a).fan = s.fan := by simp [State.withOcc]
@[simp] theorem State.withOcc_term (s : State) (a : OccAcc) : (s.withOcc a).term = s.term := by simp [State.withOcc]
@[simp] theorem State.withOcc_free (s : State) (a : OccAcc) : (s.withOcc a).free = s.free := by simp [State.withOcc]
@[simp] theorem State.withOcc_occ (s : State) (a : OccAcc) : (s.withOcc a).occ = a.u := by simp [State.withOcc]
@[simp] theorem State.withGuid_pending (s : State) (a : GuidAcc) : (s.withGuid a).pending = s.pending := by simp [State.withGuid]
@[simp] theorem State.withGuid_mem (s : State) (a : GuidAcc) : (s.withGuid a).mem = s.mem := by simp [State.withGuid]
@[simp] theorem State.withGuid_mode (s : State) (a : GuidAcc) : (s.withGuid a).mode = s.mode := by simp [State.withGuid]
@[simp] theorem State.withGuid_resetCause (s : State) (a : GuidAcc) : (s.withGuid a).resetCause = s.resetCause := by simp [State.withGuid]
@[simp] theorem State.withGuid_configFault (s : State) (a : GuidAcc) : (s.withGuid a).configFault = s.configFault := by simp [State.withGuid]
@[simp] theorem State.withGuid_imageRevision (s : State) (a : GuidAcc) : (s.withGuid a).imageRevision = s.imageRevision := by simp [State.withGuid]
@[simp] theorem State.withGuid_clock (s : State) (a : GuidAcc) : (s.withGuid a).clock = s.clock := by simp [State.withGuid]
@[simp] theorem State.withGuid_cfg (s : State) (a : GuidAcc) : (s.withGuid a).cfg = s.cfg := by simp [State.withGuid]
@[simp] theorem State.withGuid_build (s : State) (a : GuidAcc) : (s.withGuid a).build = s.build := by simp [State.withGuid]
@[simp] theorem State.withGuid_port (s : State) (a : GuidAcc) : (s.withGuid a).port = s.port := by simp [State.withGuid]
@[simp] theorem State.withGuid_capture (s : State) (a : GuidAcc) : (s.withGuid a).capture = s.capture := by simp [State.withGuid]
@[simp] theorem State.withGuid_ring (s : State) (a : GuidAcc) : (s.withGuid a).ring = s.ring := by simp [State.withGuid]
@[simp] theorem State.withGuid_occ (s : State) (a : GuidAcc) : (s.withGuid a).occ = s.occ := by simp [State.withGuid]
@[simp] theorem State.withGuid_light (s : State) (a : GuidAcc) : (s.withGuid a).light = s.light := by simp [State.withGuid]
@[simp] theorem State.withGuid_air (s : State) (a : GuidAcc) : (s.withGuid a).air = s.air := by simp [State.withGuid]
@[simp] theorem State.withGuid_fan (s : State) (a : GuidAcc) : (s.withGuid a).fan = s.fan := by simp [State.withGuid]
@[simp] theorem State.withGuid_term (s : State) (a : GuidAcc) : (s.withGuid a).term = s.term := by simp [State.withGuid]
@[simp] theorem State.withGuid_free (s : State) (a : GuidAcc) : (s.withGuid a).free = s.free := by simp [State.withGuid]
@[simp] theorem State.withGuid_guid (s : State) (a : GuidAcc) : (s.withGuid a).guid = (guidEnd a).u := by simp [State.withGuid]
@[simp] theorem State.withLight_pending (s : State) (a : LightAcc) (ns : List (Nat × Nat)) : (s.withLight a ns).pending = s.pending := by simp [State.withLight]
@[simp] theorem State.withLight_mem (s : State) (a : LightAcc) (ns : List (Nat × Nat)) : (s.withLight a ns).mem = s.mem := by simp [State.withLight]
@[simp] theorem State.withLight_mode (s : State) (a : LightAcc) (ns : List (Nat × Nat)) : (s.withLight a ns).mode = s.mode := by simp [State.withLight]
@[simp] theorem State.withLight_resetCause (s : State) (a : LightAcc) (ns : List (Nat × Nat)) : (s.withLight a ns).resetCause = s.resetCause := by simp [State.withLight]
@[simp] theorem State.withLight_configFault (s : State) (a : LightAcc) (ns : List (Nat × Nat)) : (s.withLight a ns).configFault = s.configFault := by simp [State.withLight]
@[simp] theorem State.withLight_imageRevision (s : State) (a : LightAcc) (ns : List (Nat × Nat)) : (s.withLight a ns).imageRevision = s.imageRevision := by simp [State.withLight]
@[simp] theorem State.withLight_clock (s : State) (a : LightAcc) (ns : List (Nat × Nat)) : (s.withLight a ns).clock = s.clock := by simp [State.withLight]
@[simp] theorem State.withLight_cfg (s : State) (a : LightAcc) (ns : List (Nat × Nat)) : (s.withLight a ns).cfg = s.cfg := by simp [State.withLight]
@[simp] theorem State.withLight_build (s : State) (a : LightAcc) (ns : List (Nat × Nat)) : (s.withLight a ns).build = s.build := by simp [State.withLight]
@[simp] theorem State.withLight_port (s : State) (a : LightAcc) (ns : List (Nat × Nat)) : (s.withLight a ns).port = s.port := by simp [State.withLight]
@[simp] theorem State.withLight_capture (s : State) (a : LightAcc) (ns : List (Nat × Nat)) : (s.withLight a ns).capture = s.capture := by simp [State.withLight]
@[simp] theorem State.withLight_ring (s : State) (a : LightAcc) (ns : List (Nat × Nat)) : (s.withLight a ns).ring = s.ring := by simp [State.withLight]
@[simp] theorem State.withLight_occ (s : State) (a : LightAcc) (ns : List (Nat × Nat)) : (s.withLight a ns).occ = s.occ := by simp [State.withLight]
@[simp] theorem State.withLight_guid (s : State) (a : LightAcc) (ns : List (Nat × Nat)) : (s.withLight a ns).guid = s.guid := by simp [State.withLight]
@[simp] theorem State.withLight_air (s : State) (a : LightAcc) (ns : List (Nat × Nat)) : (s.withLight a ns).air = s.air := by simp [State.withLight]
@[simp] theorem State.withLight_fan (s : State) (a : LightAcc) (ns : List (Nat × Nat)) : (s.withLight a ns).fan = s.fan := by simp [State.withLight]
@[simp] theorem State.withLight_term (s : State) (a : LightAcc) (ns : List (Nat × Nat)) : (s.withLight a ns).term = s.term := by simp [State.withLight]
@[simp] theorem State.withLight_free (s : State) (a : LightAcc) (ns : List (Nat × Nat)) : (s.withLight a ns).free = s.free := by simp [State.withLight]
@[simp] theorem State.withLight_light (s : State) (a : LightAcc) (ns : List (Nat × Nat)) : (s.withLight a ns).light = (lightEnd s.maps s.light a ns).u := by simp [State.withLight]
@[simp] theorem State.withAir_pending (s : State) (a : AirAcc) : (s.withAir a).pending = s.pending := by simp [State.withAir]
@[simp] theorem State.withAir_mem (s : State) (a : AirAcc) : (s.withAir a).mem = s.mem := by simp [State.withAir]
@[simp] theorem State.withAir_mode (s : State) (a : AirAcc) : (s.withAir a).mode = s.mode := by simp [State.withAir]
@[simp] theorem State.withAir_resetCause (s : State) (a : AirAcc) : (s.withAir a).resetCause = s.resetCause := by simp [State.withAir]
@[simp] theorem State.withAir_configFault (s : State) (a : AirAcc) : (s.withAir a).configFault = s.configFault := by simp [State.withAir]
@[simp] theorem State.withAir_imageRevision (s : State) (a : AirAcc) : (s.withAir a).imageRevision = s.imageRevision := by simp [State.withAir]
@[simp] theorem State.withAir_clock (s : State) (a : AirAcc) : (s.withAir a).clock = s.clock := by simp [State.withAir]
@[simp] theorem State.withAir_cfg (s : State) (a : AirAcc) : (s.withAir a).cfg = s.cfg := by simp [State.withAir]
@[simp] theorem State.withAir_build (s : State) (a : AirAcc) : (s.withAir a).build = s.build := by simp [State.withAir]
@[simp] theorem State.withAir_port (s : State) (a : AirAcc) : (s.withAir a).port = s.port := by simp [State.withAir]
@[simp] theorem State.withAir_capture (s : State) (a : AirAcc) : (s.withAir a).capture = s.capture := by simp [State.withAir]
@[simp] theorem State.withAir_ring (s : State) (a : AirAcc) : (s.withAir a).ring = s.ring := by simp [State.withAir]
@[simp] theorem State.withAir_occ (s : State) (a : AirAcc) : (s.withAir a).occ = s.occ := by simp [State.withAir]
@[simp] theorem State.withAir_guid (s : State) (a : AirAcc) : (s.withAir a).guid = s.guid := by simp [State.withAir]
@[simp] theorem State.withAir_light (s : State) (a : AirAcc) : (s.withAir a).light = s.light := by simp [State.withAir]
@[simp] theorem State.withAir_fan (s : State) (a : AirAcc) : (s.withAir a).fan = s.fan := by simp [State.withAir]
@[simp] theorem State.withAir_term (s : State) (a : AirAcc) : (s.withAir a).term = s.term := by simp [State.withAir]
@[simp] theorem State.withAir_free (s : State) (a : AirAcc) : (s.withAir a).free = s.free := by simp [State.withAir]
@[simp] theorem State.withAir_air (s : State) (a : AirAcc) : (s.withAir a).air = (evalAlarm a).u := by simp [State.withAir]
@[simp] theorem State.withFan_pending (s : State) (a : FanAcc) (o : Option (Nat × Bool)) : (s.withFan a o).pending = s.pending := by simp [State.withFan]
@[simp] theorem State.withFan_mem (s : State) (a : FanAcc) (o : Option (Nat × Bool)) : (s.withFan a o).mem = s.mem := by simp [State.withFan]
@[simp] theorem State.withFan_mode (s : State) (a : FanAcc) (o : Option (Nat × Bool)) : (s.withFan a o).mode = s.mode := by simp [State.withFan]
@[simp] theorem State.withFan_resetCause (s : State) (a : FanAcc) (o : Option (Nat × Bool)) : (s.withFan a o).resetCause = s.resetCause := by simp [State.withFan]
@[simp] theorem State.withFan_configFault (s : State) (a : FanAcc) (o : Option (Nat × Bool)) : (s.withFan a o).configFault = s.configFault := by simp [State.withFan]
@[simp] theorem State.withFan_imageRevision (s : State) (a : FanAcc) (o : Option (Nat × Bool)) : (s.withFan a o).imageRevision = s.imageRevision := by simp [State.withFan]
@[simp] theorem State.withFan_clock (s : State) (a : FanAcc) (o : Option (Nat × Bool)) : (s.withFan a o).clock = s.clock := by simp [State.withFan]
@[simp] theorem State.withFan_cfg (s : State) (a : FanAcc) (o : Option (Nat × Bool)) : (s.withFan a o).cfg = s.cfg := by simp [State.withFan]
@[simp] theorem State.withFan_build (s : State) (a : FanAcc) (o : Option (Nat × Bool)) : (s.withFan a o).build = s.build := by simp [State.withFan]
@[simp] theorem State.withFan_port (s : State) (a : FanAcc) (o : Option (Nat × Bool)) : (s.withFan a o).port = s.port := by simp [State.withFan]
@[simp] theorem State.withFan_capture (s : State) (a : FanAcc) (o : Option (Nat × Bool)) : (s.withFan a o).capture = s.capture := by simp [State.withFan]
@[simp] theorem State.withFan_ring (s : State) (a : FanAcc) (o : Option (Nat × Bool)) : (s.withFan a o).ring = s.ring := by simp [State.withFan]
@[simp] theorem State.withFan_occ (s : State) (a : FanAcc) (o : Option (Nat × Bool)) : (s.withFan a o).occ = s.occ := by simp [State.withFan]
@[simp] theorem State.withFan_guid (s : State) (a : FanAcc) (o : Option (Nat × Bool)) : (s.withFan a o).guid = s.guid := by simp [State.withFan]
@[simp] theorem State.withFan_light (s : State) (a : FanAcc) (o : Option (Nat × Bool)) : (s.withFan a o).light = s.light := by simp [State.withFan]
@[simp] theorem State.withFan_air (s : State) (a : FanAcc) (o : Option (Nat × Bool)) : (s.withFan a o).air = s.air := by simp [State.withFan]
@[simp] theorem State.withFan_term (s : State) (a : FanAcc) (o : Option (Nat × Bool)) : (s.withFan a o).term = s.term := by simp [State.withFan]
@[simp] theorem State.withFan_free (s : State) (a : FanAcc) (o : Option (Nat × Bool)) : (s.withFan a o).free = s.free := by simp [State.withFan]
@[simp] theorem State.withFan_fan (s : State) (a : FanAcc) (o : Option (Nat × Bool)) : (s.withFan a o).fan = (fanEnd s s.fan a o).u := by simp [State.withFan]
@[simp] theorem State.withTerm_pending (s : State) (a : TermAcc) : (s.withTerm a).pending = s.pending := by simp [State.withTerm]
@[simp] theorem State.withTerm_mem (s : State) (a : TermAcc) : (s.withTerm a).mem = s.mem := by simp [State.withTerm]
@[simp] theorem State.withTerm_mode (s : State) (a : TermAcc) : (s.withTerm a).mode = s.mode := by simp [State.withTerm]
@[simp] theorem State.withTerm_resetCause (s : State) (a : TermAcc) : (s.withTerm a).resetCause = s.resetCause := by simp [State.withTerm]
@[simp] theorem State.withTerm_configFault (s : State) (a : TermAcc) : (s.withTerm a).configFault = s.configFault := by simp [State.withTerm]
@[simp] theorem State.withTerm_imageRevision (s : State) (a : TermAcc) : (s.withTerm a).imageRevision = s.imageRevision := by simp [State.withTerm]
@[simp] theorem State.withTerm_clock (s : State) (a : TermAcc) : (s.withTerm a).clock = s.clock := by simp [State.withTerm]
@[simp] theorem State.withTerm_cfg (s : State) (a : TermAcc) : (s.withTerm a).cfg = s.cfg := by simp [State.withTerm]
@[simp] theorem State.withTerm_build (s : State) (a : TermAcc) : (s.withTerm a).build = s.build := by simp [State.withTerm]
@[simp] theorem State.withTerm_port (s : State) (a : TermAcc) : (s.withTerm a).port = s.port := by simp [State.withTerm]
@[simp] theorem State.withTerm_capture (s : State) (a : TermAcc) : (s.withTerm a).capture = s.capture := by simp [State.withTerm]
@[simp] theorem State.withTerm_ring (s : State) (a : TermAcc) : (s.withTerm a).ring = s.ring := by simp [State.withTerm]
@[simp] theorem State.withTerm_occ (s : State) (a : TermAcc) : (s.withTerm a).occ = s.occ := by simp [State.withTerm]
@[simp] theorem State.withTerm_guid (s : State) (a : TermAcc) : (s.withTerm a).guid = s.guid := by simp [State.withTerm]
@[simp] theorem State.withTerm_light (s : State) (a : TermAcc) : (s.withTerm a).light = s.light := by simp [State.withTerm]
@[simp] theorem State.withTerm_air (s : State) (a : TermAcc) : (s.withTerm a).air = s.air := by simp [State.withTerm]
@[simp] theorem State.withTerm_fan (s : State) (a : TermAcc) : (s.withTerm a).fan = s.fan := by simp [State.withTerm]
@[simp] theorem State.withTerm_free (s : State) (a : TermAcc) : (s.withTerm a).free = s.free := by simp [State.withTerm]
@[simp] theorem State.withTerm_term (s : State) (a : TermAcc) : (s.withTerm a).term = a.u := by simp [State.withTerm]
@[simp] theorem State.withRing_pending (s : State) (a : RingAcc) : (s.withRing a).pending = s.pending := by simp [State.withRing]
@[simp] theorem State.withRing_mem (s : State) (a : RingAcc) : (s.withRing a).mem = s.mem := by simp [State.withRing]
@[simp] theorem State.withRing_mode (s : State) (a : RingAcc) : (s.withRing a).mode = s.mode := by simp [State.withRing]
@[simp] theorem State.withRing_resetCause (s : State) (a : RingAcc) : (s.withRing a).resetCause = s.resetCause := by simp [State.withRing]
@[simp] theorem State.withRing_configFault (s : State) (a : RingAcc) : (s.withRing a).configFault = s.configFault := by simp [State.withRing]
@[simp] theorem State.withRing_imageRevision (s : State) (a : RingAcc) : (s.withRing a).imageRevision = s.imageRevision := by simp [State.withRing]
@[simp] theorem State.withRing_clock (s : State) (a : RingAcc) : (s.withRing a).clock = s.clock := by simp [State.withRing]
@[simp] theorem State.withRing_cfg (s : State) (a : RingAcc) : (s.withRing a).cfg = s.cfg := by simp [State.withRing]
@[simp] theorem State.withRing_build (s : State) (a : RingAcc) : (s.withRing a).build = s.build := by simp [State.withRing]
@[simp] theorem State.withRing_port (s : State) (a : RingAcc) : (s.withRing a).port = s.port := by simp [State.withRing]
@[simp] theorem State.withRing_capture (s : State) (a : RingAcc) : (s.withRing a).capture = s.capture := by simp [State.withRing]
@[simp] theorem State.withRing_occ (s : State) (a : RingAcc) : (s.withRing a).occ = s.occ := by simp [State.withRing]
@[simp] theorem State.withRing_guid (s : State) (a : RingAcc) : (s.withRing a).guid = s.guid := by simp [State.withRing]
@[simp] theorem State.withRing_light (s : State) (a : RingAcc) : (s.withRing a).light = s.light := by simp [State.withRing]
@[simp] theorem State.withRing_air (s : State) (a : RingAcc) : (s.withRing a).air = s.air := by simp [State.withRing]
@[simp] theorem State.withRing_fan (s : State) (a : RingAcc) : (s.withRing a).fan = s.fan := by simp [State.withRing]
@[simp] theorem State.withRing_term (s : State) (a : RingAcc) : (s.withRing a).term = s.term := by simp [State.withRing]
@[simp] theorem State.withRing_free (s : State) (a : RingAcc) : (s.withRing a).free = s.free := by simp [State.withRing]
@[simp] theorem State.withCtl_pending (s : State) (l : Nat) (f : CtlAcc → CtlAcc) : (s.withCtl l f).pending = s.pending := by simp [State.withCtl]
@[simp] theorem State.withCtl_mem (s : State) (l : Nat) (f : CtlAcc → CtlAcc) : (s.withCtl l f).mem = s.mem := by simp [State.withCtl]
@[simp] theorem State.withCtl_mode (s : State) (l : Nat) (f : CtlAcc → CtlAcc) : (s.withCtl l f).mode = s.mode := by simp [State.withCtl]
@[simp] theorem State.withCtl_resetCause (s : State) (l : Nat) (f : CtlAcc → CtlAcc) : (s.withCtl l f).resetCause = s.resetCause := by simp [State.withCtl]
@[simp] theorem State.withCtl_configFault (s : State) (l : Nat) (f : CtlAcc → CtlAcc) : (s.withCtl l f).configFault = s.configFault := by simp [State.withCtl]
@[simp] theorem State.withCtl_imageRevision (s : State) (l : Nat) (f : CtlAcc → CtlAcc) : (s.withCtl l f).imageRevision = s.imageRevision := by simp [State.withCtl]
@[simp] theorem State.withCtl_clock (s : State) (l : Nat) (f : CtlAcc → CtlAcc) : (s.withCtl l f).clock = s.clock := by simp [State.withCtl]
@[simp] theorem State.withCtl_cfg (s : State) (l : Nat) (f : CtlAcc → CtlAcc) : (s.withCtl l f).cfg = s.cfg := by simp [State.withCtl]
@[simp] theorem State.withCtl_build (s : State) (l : Nat) (f : CtlAcc → CtlAcc) : (s.withCtl l f).build = s.build := by simp [State.withCtl]
@[simp] theorem State.withCtl_port (s : State) (l : Nat) (f : CtlAcc → CtlAcc) : (s.withCtl l f).port = s.port := by simp [State.withCtl]
@[simp] theorem State.withCtl_capture (s : State) (l : Nat) (f : CtlAcc → CtlAcc) : (s.withCtl l f).capture = s.capture := by simp [State.withCtl]
@[simp] theorem State.withCtl_occ (s : State) (l : Nat) (f : CtlAcc → CtlAcc) : (s.withCtl l f).occ = s.occ := by simp [State.withCtl]
@[simp] theorem State.withCtl_guid (s : State) (l : Nat) (f : CtlAcc → CtlAcc) : (s.withCtl l f).guid = s.guid := by simp [State.withCtl]
@[simp] theorem State.withCtl_light (s : State) (l : Nat) (f : CtlAcc → CtlAcc) : (s.withCtl l f).light = s.light := by simp [State.withCtl]
@[simp] theorem State.withCtl_air (s : State) (l : Nat) (f : CtlAcc → CtlAcc) : (s.withCtl l f).air = s.air := by simp [State.withCtl]
@[simp] theorem State.withCtl_fan (s : State) (l : Nat) (f : CtlAcc → CtlAcc) : (s.withCtl l f).fan = s.fan := by simp [State.withCtl]
@[simp] theorem State.withCtl_term (s : State) (l : Nat) (f : CtlAcc → CtlAcc) : (s.withCtl l f).term = s.term := by simp [State.withCtl]

end Sys2Proof.Machine
end

