-- ==== Sys2Proof/Laws/Effects.lean ====
section
/-! SUPPORT. Laws of the shared operations: taking messages, and everything that the effects of a unit's event can do to the
channel, the Reflect List, the Live Window, the loops and the guard. -/

namespace Sys2Proof.Machine

/-! ### Taking and waiting -/

/-- A message that is next is taken. -/
theorem State.take_next {s : State} {src : Sender} {dst : UnitId} {b : Body} (f : State → State)
    (h : s.next? src dst = some b) : s.take src dst b f = f (s.taken src dst) := by simp [State.take, h]

/-- A message that is not next leaves the part as it was. -/
theorem State.take_other {s : State} {src : Sender} {dst : UnitId} {b : Body} (f : State → State)
    (h : s.next? src dst ≠ some b) : s.take src dst b f = s := by simp [State.take, h]

/-- A message that is next past those that let it pass is taken. -/
theorem State.takePast_next {s : State} {pass : Body → Bool} {src : Sender} {dst : UnitId} {b : Body} (f : State → State)
    (h : s.nextPast? pass src dst = some b) : s.takePast pass src dst b f = f (s.takenPast pass src dst) := by
  simp [State.takePast, h]

theorem State.takePast_other {s : State} {pass : Body → Bool} {src : Sender} {dst : UnitId} {b : Body} (f : State → State)
    (h : s.nextPast? pass src dst ≠ some b) : s.takePast pass src dst b f = s := by simp [State.takePast, h]

/-- Only at the Lighting Unit does a message let a stage notice pass (R68). -/
theorem letsPass_other {u : UnitId} (h : u ≠ .lighting) (b : Body) : letsPass u b = false := by
  unfold letsPass; split <;> simp [h]

theorem dropPast_none (pass : Body → Bool) (hp : ∀ b, pass b = false) (src : Sender) (dst : UnitId) (ms : List Msg) :
    dropPast pass src dst ms = dropMsg src dst ms := by
  unfold dropPast
  induction ms with
  | nil => rfl
  | cons m ms ih =>
    by_cases h : m.src = src ∧ m.dst = dst
    · rw [dropMsg, if_pos h, List.eraseP_cons_of_pos (by simp [h, hp])]
    · rw [dropMsg, if_neg h, List.eraseP_cons_of_neg (by simp [h]), ih]

theorem headPast_none (pass : Body → Bool) (hp : ∀ b, pass b = false) (src : Sender) (dst : UnitId) (ms : List Msg) :
    headPast pass src dst ms = headMsg src dst ms := by simp [headPast, headMsg, hp]

/-- At a unit other than the Lighting Unit a stage notice is taken in its turn. -/
theorem State.takePast_letsPass {s : State} {u : UnitId} (h : u ≠ .lighting) (src : Sender) (b : Body) (f : State → State) :
    s.takePast (letsPass u) src u b f = s.take src u b f := by
  simp [State.takePast, State.take, State.nextPast?, State.next?, State.takenPast, State.taken,
    dropPast_none _ (letsPass_other h), headPast_none _ (letsPass_other h)]

/-- A stage notice that is in its turn is taken so also past other messages. -/
theorem headPast_of_headMsg {pass : Body → Bool} {src : Sender} {dst : UnitId} {ms : List Msg} {m : Msg}
    (h : headMsg src dst ms = some m) (hp : pass m.body = false) : headPast pass src dst ms = some m := by
  unfold headMsg at h
  unfold headPast
  induction ms with
  | nil => simp at h
  | cons x ms ih =>
    simp only [List.find?_cons] at h ⊢
    by_cases hx : x.src = src ∧ x.dst = dst
    · simp only [hx, and_self, decide_true] at h
      cases h
      simp [hx, hp]
    · simp only [hx, decide_false] at h
      simp only [hx, decide_false, Bool.false_and]
      exact ih h

@[simp] theorem State.when_true (s : State) (f : State → State) : s.when_ true f = f s := rfl

@[simp] theorem State.when_false (s : State) (f : State → State) : s.when_ false f = s := rfl

/-- The messages of another sender or receiver stay, in their order. -/
theorem headMsg_dropMsg_other {src src' : Sender} {dst dst' : UnitId} (h : ¬(src' = src ∧ dst' = dst)) (ms : List Msg) :
    headMsg src' dst' (dropMsg src dst ms) = headMsg src' dst' ms := by
  unfold headMsg
  induction ms with
  | nil => rfl
  | cons m ms ih =>
    by_cases hm : m.src = src ∧ m.dst = dst
    · have : ¬(m.src = src' ∧ m.dst = dst') := fun hc => h ⟨hc.1.symm.trans hm.1, hc.2.symm.trans hm.2⟩
      simp [dropMsg, hm.1, hm.2]
      have h2 : ¬(src = src' ∧ dst = dst') := by rw [hm.1, hm.2] at this; exact this
      simp [hm.1, hm.2, h2]
    · simp only [dropMsg, if_neg hm, List.find?_cons]
      split <;> simp_all

/-! ### Effects -/

@[simp] theorem State.emit_nil (s : State) : s.emit [] = s := rfl

@[simp] theorem State.emit_cons (s : State) (e : Eff) (es : List Eff) : s.emit (e :: es) = (s.effect e).emit es := rfl

theorem State.emit_append (s : State) (es fs : List Eff) : s.emit (es ++ fs) = (s.emit es).emit fs := by
  simp [State.emit, List.foldl_append]

/-- The message of an effect, if it sends one. -/
def Eff.msg : Eff → List Msg
  | .send m => [m]
  | .reflect _ | .attend _ | .mark _ _ _ | .unmark _ _ _ | .hardLocks _ => []

/-- Effects append their messages to the channel, in their order, and take none away. -/
theorem State.emit_chan (s : State) (es : List Eff) : (s.emit es).chan = s.chan ++ es.flatMap Eff.msg := by
  induction es generalizing s with
  | nil => simp
  | cons e es ih => rw [State.emit_cons, ih]; cases e <;> simp [State.effect, Eff.msg]

/-- Effects touch nothing of the Live Window but Attention Pending. -/
theorem State.emit_live (s : State) (es : List Eff) : { (s.emit es).live with pendingAtt := 0 } = { s.live with pendingAtt := 0 } := by
  induction es generalizing s with
  | nil => rfl
  | cons e es ih => rw [State.emit_cons, ih]; cases e <;> rfl

/-- A pending attention bit stays set through every effect. -/
theorem State.emit_attention (s : State) (es : List Eff) (i : Nat) (h : s.live.pendingAtt.getLsbD i = true) :
    (s.emit es).live.pendingAtt.getLsbD i = true := by
  induction es generalizing s with
  | nil => exact h
  | cons e es ih =>
    rw [State.emit_cons]
    apply ih
    cases e <;> simp_all [State.effect, Live.attend]

/-- An attention bit that an event sets is pending after it. -/
theorem State.emit_attend (s : State) (es : List Eff) (a : Attn) (h : Eff.attend a ∈ es) :
    (s.emit es).live.pendingAtt.getLsbD (attnBit a) = true := by
  induction es generalizing s with
  | nil => cases h
  | cons e es ih =>
    rw [State.emit_cons]
    rcases List.mem_cons.mp h with rfl | h
    · apply State.emit_attention
      cases a <;> simp [State.effect, Live.attend, attnMask, attnBit]
    · exact ih _ h

/-- A record joins the Reflect List once; those that are in it keep their places (R162). -/
theorem Reflect.join_list (r : Reflect) (x : RecName) : (r.join x).list = if x ∈ r.list then r.list else r.list ++ [x] := by
  unfold Reflect.join; split <;> rfl

theorem Reflect.mem_join (r : Reflect) (x : RecName) : x ∈ (r.join x).list := by
  rw [Reflect.join_list]; split <;> simp_all

theorem Reflect.mem_join_of_mem (r : Reflect) {x y : RecName} (h : y ∈ r.list) : y ∈ (r.join x).list := by
  rw [Reflect.join_list]; split <;> simp_all

/-- A record that is on the Reflect List stays on it through every effect. -/
theorem State.emit_listed (s : State) (es : List Eff) (x : RecName) (h : x ∈ s.reflect.list) : x ∈ (s.emit es).reflect.list := by
  induction es generalizing s with
  | nil => exact h
  | cons e es ih =>
    rw [State.emit_cons]
    apply ih
    cases e <;> first | exact h | exact Reflect.mem_join_of_mem _ h

/-- A record that an event places on the Reflect List is on it after the event. -/
theorem State.emit_reflect (s : State) (es : List Eff) (x : RecName) (h : Eff.reflect x ∈ es) : x ∈ (s.emit es).reflect.list := by
  induction es generalizing s with
  | nil => cases h
  | cons e es ih =>
    rw [State.emit_cons]
    rcases List.mem_cons.mp h with rfl | h
    · exact State.emit_listed _ _ _ (Reflect.mem_join _ _)
    · exact ih _ h

/-- Effects leave the record that is being written alone. -/
theorem State.emit_current (s : State) (es : List Eff) : (s.emit es).reflect.current = s.reflect.current := by
  induction es generalizing s with
  | nil => rfl
  | cons e es ih =>
    rw [State.emit_cons, ih]
    cases e <;> try rfl
    rename_i r
    show (s.reflect.join r).current = _
    unfold Reflect.join; split <;> rfl

/-- A mark changes nothing of a loop but its pending order (R143). -/
theorem Loop.setMark_rest (L : Loop) (n : Nat) (m : Mark) : { L.setMark n m with order := [] } = { L with order := [] } := by
  unfold Loop.setMark; split <;> rfl

theorem Loop.clearMark_rest (L : Loop) (n : Nat) (m : Mark) : { L.clearMark n m with order := [] } = { L with order := [] } := rfl

/-- A request to set a mark leaves it set (R143). -/
theorem Loop.mem_setMark (L : Loop) (n : Nat) (m : Mark) : (n, m) ∈ (L.setMark n m).order := by
  unfold Loop.setMark; split <;> simp_all

/-- Effects change nothing of a loop but its pending order. -/
theorem State.emit_loop (s : State) (es : List Eff) (l : Nat) :
    { (s.emit es).loop l with order := [] } = { s.loop l with order := [] } := by
  induction es generalizing s with
  | nil => rfl
  | cons e es ih =>
    rw [State.emit_cons, ih]
    cases e with
    | mark k n m =>
      by_cases h : l = k
      · subst h; simp [State.effect, State.loop, Loop.setMark_rest]
      · simp [State.effect, State.loop, Tab.get_set_other _ _ _ h]
    | unmark k n m =>
      by_cases h : l = k
      · subst h; simp [State.effect, State.loop, Loop.clearMark_rest]
      · simp [State.effect, State.loop, Tab.get_set_other _ _ _ h]
    | reflect _ | send _ | attend _ | hardLocks _ => rfl

/-- Effects leave the lock bits alone; they set and release hard locks only. -/
theorem State.emit_locks (s : State) (es : List Eff) : (s.emit es).guard.locks = s.guard.locks := by
  induction es generalizing s with
  | nil => rfl
  | cons e es ih => rw [State.emit_cons, ih]; cases e <;> rfl

/-- Effects that set or release no hard lock leave the guard alone. -/
theorem State.emit_guard (s : State) (es : List Eff) (h : ∀ on, Eff.hardLocks on ∉ es) : (s.emit es).guard = s.guard := by
  induction es generalizing s with
  | nil => rfl
  | cons e es ih =>
    rw [State.emit_cons, ih _ (fun on hm => h on (by simp [hm]))]
    cases e with
    | hardLocks on => exact absurd (by simp) (h on)
    | reflect _ | send _ | attend _ | mark _ _ _ | unmark _ _ _ => rfl

/-! ### The unit at work -/

section Acc

variable {U α : Type}

@[simp] theorem Acc.say_u (a : Acc U) (e : Eff) : (a.say e).u = a.u := rfl

@[simp] theorem Acc.say_out (a : Acc U) (e : Eff) : (a.say e).out = a.out ++ [e] := rfl

@[simp] theorem Acc.put_u (a : Acc U) (u : U) : (a.put u).u = u := rfl

@[simp] theorem Acc.put_out (a : Acc U) (u : U) : (a.put u).out = a.out := rfl

@[simp] theorem Acc.sayIf_u (a : Acc U) (c : Bool) (e : Eff) : (a.sayIf c e).u = a.u := by unfold Acc.sayIf; split <;> rfl

@[simp] theorem Acc.start_u (u : U) : (Acc.start u).u = u := rfl

@[simp] theorem Acc.start_out (u : U) : (Acc.start u).out = [] := rfl

@[simp] theorem Acc.each_nil (a : Acc U) (f : Acc U → α → Acc U) : a.each [] f = a := rfl

@[simp] theorem Acc.each_cons (a : Acc U) (x : α) (xs : List α) (f : Acc U → α → Acc U) :
    a.each (x :: xs) f = (f a x).each xs f := rfl

/-- What holds of a unit at work and is kept by each piece of work holds after all of them. -/
theorem Acc.each_induct (P : Acc U → Prop) (xs : List α) (f : Acc U → α → Acc U) (a : Acc U) (h : P a)
    (step : ∀ a x, x ∈ xs → P a → P (f a x)) : P (a.each xs f) := by
  induction xs generalizing a with
  | nil => exact h
  | cons x xs ih => exact ih _ (step a x (by simp) h) (fun a y hy => step a y (by simp [hy]))

end Acc

end Sys2Proof.Machine
end

