-- ==== Sys2Proof/Laws/Units.lean ====
section
/-! SUPPORT. What a write to one entry of a unit's tables does to every read of them. -/

namespace Sys2Proof.Machine

@[simp] theorem Occ.bay_setBay (u : Occ) (i j : Nat) (x : BayU) :
    (u.setBay i x).bay j = if j = i then x else u.bay j := Tab.get_set _ _ _ _ _

@[simp] theorem Occ.zone_setZone (u : Occ) (i j : Nat) (x : OccZone) :
    (u.setZone i x).zone j = if j = i then x else u.zone j := Tab.get_set _ _ _ _ _

@[simp] theorem Guid.zone_setZone (u : Guid) (i j : Nat) (x : GZone) :
    (u.setZone i x).zone j = if j = i then x else u.zone j := Tab.get_set _ _ _ _ _

@[simp] theorem Guid.gate_setGate (u : Guid) (i j : Nat) (x : GGate) :
    (u.setGate i x).gate j = if j = i then x else u.gate j := Tab.get_set _ _ _ _ _

@[simp] theorem Guid.sign_setSign (u : Guid) (i j : Nat) (x : GSign) :
    (u.setSign i x).sign j = if j = i then x else u.sign j := Tab.get_set _ _ _ _ _

@[simp] theorem Light.chan_setChan (u : Light) (i j : Nat) (x : LChan) :
    (u.setChan i x).chan j = if j = i then x else u.chan j := Tab.get_set _ _ _ _ _

@[simp] theorem Air.zone_setZone (u : Air) (i j : Nat) (x : AZone) :
    (u.setZone i x).zone j = if j = i then x else u.zone j := Tab.get_set _ _ _ _ _

@[simp] theorem Fan.fan_setFan (u : Fan) (i j : Nat) (x : FanU) :
    (u.setFan i x).fan j = if j = i then x else u.fan j := Tab.get_set _ _ _ _ _

@[simp] theorem Fan.group_setGroup (u : Fan) (i j : Nat) (x : GroupU) :
    (u.setGroup i x).group j = if j = i then x else u.group j := Tab.get_set _ _ _ _ _

@[simp] theorem Term.term_setTerm (u : Term) (i j : Nat) (x : TermU) :
    (u.setTerm i x).term j = if j = i then x else u.term j := Tab.get_set _ _ _ _ _

@[simp] theorem Ring.slot_setSlot (u : Ring) (i j : Nat) (x : Slot) :
    (u.setSlot i x).slot j = if j = i then x else u.slot j := Tab.get_set _ _ _ _ _

@[simp] theorem Ring.queue_setQueue (u : Ring) (i j : Nat) (x : List Entry) :
    (u.setQueue i x).queue j = if j = i then x else u.queue j := Tab.get_set _ _ _ _ _

@[simp] theorem Loop.node_setNode (u : Loop) (i j : Nat) (x : Node) :
    (u.setNode i x).node j = if j = i then x else u.node j := Tab.get_set _ _ _ _ _

theorem Occ.node_setNode (u : Occ) (l n l' n' : Nat) (x : OccNode) :
    (u.setNode l n x).node l' n' = if nodeKey l' n' = nodeKey l n then x else u.node l' n' := Tab.get_set _ _ _ _ _

@[simp] theorem Occ.node_setNode_same (u : Occ) (l n : Nat) (x : OccNode) : (u.setNode l n x).node l n = x := by
  simp [Occ.node_setNode]

theorem Guid.node_setNode (u : Guid) (l n l' n' : Nat) (x : GNode) :
    (u.setNode l n x).node l' n' = if nodeKey l' n' = nodeKey l n then x else u.node l' n' := Tab.get_set _ _ _ _ _

@[simp] theorem Guid.node_setNode_same (u : Guid) (l n : Nat) (x : GNode) : (u.setNode l n x).node l n = x := by
  simp [Guid.node_setNode]

theorem Light.node_setNode (u : Light) (l n l' n' : Nat) (x : LNode) :
    (u.setNode l n x).node l' n' = if nodeKey l' n' = nodeKey l n then x else u.node l' n' := Tab.get_set _ _ _ _ _

@[simp] theorem Light.node_setNode_same (u : Light) (l n : Nat) (x : LNode) : (u.setNode l n x).node l n = x := by
  simp [Light.node_setNode]

theorem Air.head_setHead (u : Air) (l n l' n' : Nat) (x : Head) :
    (u.setHead l n x).head l' n' = if nodeKey l' n' = nodeKey l n then x else u.head l' n' := Tab.get_set _ _ _ _ _

@[simp] theorem Air.head_setHead_same (u : Air) (l n : Nat) (x : Head) : (u.setHead l n x).head l n = x := by
  simp [Air.head_setHead]

/-- Loops 0 to 3 and nodes 1 to 32 have distinct keys. -/
theorem nodeKey_inj {l n l' n' : Nat} (hn : nodeOk n = true) (hn' : nodeOk n' = true) (h : nodeKey l n = nodeKey l' n') :
    l = l' ∧ n = n' := by
  simp [nodeOk, nodeKey] at *
  omega

@[simp] theorem Occ.zone_of_setBay (u : Occ) (i : Nat) (x : BayU) : (u.setBay i x).zone = u.zone := rfl

@[simp] theorem Occ.node_of_setBay (u : Occ) (i : Nat) (x : BayU) : (u.setBay i x).node = u.node := rfl

@[simp] theorem Occ.bay_of_setZone (u : Occ) (i : Nat) (x : OccZone) : (u.setZone i x).bay = u.bay := rfl

@[simp] theorem Occ.node_of_setZone (u : Occ) (i : Nat) (x : OccZone) : (u.setZone i x).node = u.node := rfl

@[simp] theorem Occ.bay_of_setNode (u : Occ) (l n : Nat) (x : OccNode) : (u.setNode l n x).bay = u.bay := rfl

@[simp] theorem Occ.zone_of_setNode (u : Occ) (l n : Nat) (x : OccNode) : (u.setNode l n x).zone = u.zone := rfl

@[simp] theorem Guid.gate_of_setZone (u : Guid) (i : Nat) (x : GZone) : (u.setZone i x).gate = u.gate := rfl

@[simp] theorem Guid.sign_of_setZone (u : Guid) (i : Nat) (x : GZone) : (u.setZone i x).sign = u.sign := rfl

@[simp] theorem Guid.node_of_setZone (u : Guid) (i : Nat) (x : GZone) : (u.setZone i x).node = u.node := rfl

@[simp] theorem Guid.holds_of_setZone (u : Guid) (i : Nat) (x : GZone) : (u.setZone i x).holds = u.holds := rfl

@[simp] theorem Guid.nextId_of_setZone (u : Guid) (i : Nat) (x : GZone) : (u.setZone i x).nextId = u.nextId := rfl

@[simp] theorem Guid.zone_of_setGate (u : Guid) (i : Nat) (x : GGate) : (u.setGate i x).zone = u.zone := rfl

@[simp] theorem Guid.sign_of_setGate (u : Guid) (i : Nat) (x : GGate) : (u.setGate i x).sign = u.sign := rfl

@[simp] theorem Guid.node_of_setGate (u : Guid) (i : Nat) (x : GGate) : (u.setGate i x).node = u.node := rfl

@[simp] theorem Guid.holds_of_setGate (u : Guid) (i : Nat) (x : GGate) : (u.setGate i x).holds = u.holds := rfl

@[simp] theorem Guid.nextId_of_setGate (u : Guid) (i : Nat) (x : GGate) : (u.setGate i x).nextId = u.nextId := rfl

@[simp] theorem Guid.zone_of_setSign (u : Guid) (i : Nat) (x : GSign) : (u.setSign i x).zone = u.zone := rfl

@[simp] theorem Guid.gate_of_setSign (u : Guid) (i : Nat) (x : GSign) : (u.setSign i x).gate = u.gate := rfl

@[simp] theorem Guid.node_of_setSign (u : Guid) (i : Nat) (x : GSign) : (u.setSign i x).node = u.node := rfl

@[simp] theorem Guid.holds_of_setSign (u : Guid) (i : Nat) (x : GSign) : (u.setSign i x).holds = u.holds := rfl

@[simp] theorem Guid.nextId_of_setSign (u : Guid) (i : Nat) (x : GSign) : (u.setSign i x).nextId = u.nextId := rfl

@[simp] theorem Guid.zone_of_setNode (u : Guid) (l n : Nat) (x : GNode) : (u.setNode l n x).zone = u.zone := rfl

@[simp] theorem Guid.gate_of_setNode (u : Guid) (l n : Nat) (x : GNode) : (u.setNode l n x).gate = u.gate := rfl

@[simp] theorem Guid.sign_of_setNode (u : Guid) (l n : Nat) (x : GNode) : (u.setNode l n x).sign = u.sign := rfl

@[simp] theorem Guid.holds_of_setNode (u : Guid) (l n : Nat) (x : GNode) : (u.setNode l n x).holds = u.holds := rfl

@[simp] theorem Guid.nextId_of_setNode (u : Guid) (l n : Nat) (x : GNode) : (u.setNode l n x).nextId = u.nextId := rfl

@[simp] theorem Light.node_of_setChan (u : Light) (i : Nat) (x : LChan) : (u.setChan i x).node = u.node := rfl

@[simp] theorem Light.stages_of_setChan (u : Light) (i : Nat) (x : LChan) : (u.setChan i x).stages = u.stages := rfl

@[simp] theorem Light.override_of_setChan (u : Light) (i : Nat) (x : LChan) : (u.setChan i x).override = u.override := rfl

@[simp] theorem Light.chan_of_setNode (u : Light) (l n : Nat) (x : LNode) : (u.setNode l n x).chan = u.chan := rfl

@[simp] theorem Light.stages_of_setNode (u : Light) (l n : Nat) (x : LNode) : (u.setNode l n x).stages = u.stages := rfl

@[simp] theorem Light.override_of_setNode (u : Light) (l n : Nat) (x : LNode) : (u.setNode l n x).override = u.override := rfl

@[simp] theorem Air.zone_of_setHead (u : Air) (l n : Nat) (x : Head) : (u.setHead l n x).zone = u.zone := rfl

@[simp] theorem Air.smoke_of_setHead (u : Air) (l n : Nat) (x : Head) : (u.setHead l n x).smoke = u.smoke := rfl

@[simp] theorem Air.override_of_setHead (u : Air) (l n : Nat) (x : Head) : (u.setHead l n x).override = u.override := rfl

@[simp] theorem Air.purgeTimer_of_setHead (u : Air) (l n : Nat) (x : Head) : (u.setHead l n x).purgeTimer = u.purgeTimer := rfl

@[simp] theorem Air.alarm_of_setHead (u : Air) (l n : Nat) (x : Head) : (u.setHead l n x).alarm = u.alarm := rfl

@[simp] theorem Air.head_of_setZone (u : Air) (i : Nat) (x : AZone) : (u.setZone i x).head = u.head := rfl

@[simp] theorem Air.smoke_of_setZone (u : Air) (i : Nat) (x : AZone) : (u.setZone i x).smoke = u.smoke := rfl

@[simp] theorem Air.override_of_setZone (u : Air) (i : Nat) (x : AZone) : (u.setZone i x).override = u.override := rfl

@[simp] theorem Air.purgeTimer_of_setZone (u : Air) (i : Nat) (x : AZone) : (u.setZone i x).purgeTimer = u.purgeTimer := rfl

@[simp] theorem Air.alarm_of_setZone (u : Air) (i : Nat) (x : AZone) : (u.setZone i x).alarm = u.alarm := rfl

@[simp] theorem Fan.group_of_setFan (u : Fan) (i : Nat) (x : FanU) : (u.setFan i x).group = u.group := rfl

@[simp] theorem Fan.failed_of_setFan (u : Fan) (i : Nat) (x : FanU) : (u.setFan i x).failed = u.failed := rfl

@[simp] theorem Fan.stages_of_setFan (u : Fan) (i : Nat) (x : FanU) : (u.setFan i x).stages = u.stages := rfl

@[simp] theorem Fan.override_of_setFan (u : Fan) (i : Nat) (x : FanU) : (u.setFan i x).override = u.override := rfl

@[simp] theorem Fan.queue_of_setFan (u : Fan) (i : Nat) (x : FanU) : (u.setFan i x).queue = u.queue := rfl

@[simp] theorem Fan.interval_of_setFan (u : Fan) (i : Nat) (x : FanU) : (u.setFan i x).interval = u.interval := rfl

@[simp] theorem Fan.fan_of_setGroup (u : Fan) (i : Nat) (x : GroupU) : (u.setGroup i x).fan = u.fan := rfl

@[simp] theorem Fan.failed_of_setGroup (u : Fan) (i : Nat) (x : GroupU) : (u.setGroup i x).failed = u.failed := rfl

@[simp] theorem Fan.stages_of_setGroup (u : Fan) (i : Nat) (x : GroupU) : (u.setGroup i x).stages = u.stages := rfl

@[simp] theorem Fan.override_of_setGroup (u : Fan) (i : Nat) (x : GroupU) : (u.setGroup i x).override = u.override := rfl

@[simp] theorem Fan.queue_of_setGroup (u : Fan) (i : Nat) (x : GroupU) : (u.setGroup i x).queue = u.queue := rfl

@[simp] theorem Fan.interval_of_setGroup (u : Fan) (i : Nat) (x : GroupU) : (u.setGroup i x).interval = u.interval := rfl

/-- The marks and Verdict of a record after those of record `i` of table `t` are replaced. -/
theorem Capture.mark_setMark (c : Capture) (t t' : Table) (i j : Nat) (m : RecMarks) :
    (c.setMark t i m).mark t' j = if recKey t' j = recKey t i then m else c.mark t' j := Tab.get_set _ _ _ _ _

@[simp] theorem Capture.mark_setMark_same (c : Capture) (t : Table) (i : Nat) (m : RecMarks) : (c.setMark t i m).mark t i = m := by
  simp [Capture.mark_setMark]

/-- The applied record at `i` after one is put there. -/
@[simp] theorem Applied.at_put (a : Applied) (i : Nat) (t : Table) (bs : List Byte) :
    (a.put i (recordOf t bs)).at_ t i = recordOf t bs := by
  cases t <;> simp [Applied.put, Applied.at_, recordOf]

/-- Loop `l` after loop `k` is replaced. -/
theorem State.loop_set (s : State) (k l : Nat) (L : Loop) :
    State.loop { s with loops := Tab.set Loop.init s.loops k L } l = if l = k then L else s.loop l := Tab.get_set _ _ _ _ _

/-- R110, R112: the whole of a fan's entry to FAULT: the fan's own fields and the Start Queue without it. -/
@[simp] theorem fanFault_u (a : FanAcc) (f l n : Nat) (c : FanCause) :
    (fanFault a f l n c).u = (a.u.leave f).setFan f
      { a.u.fan f with state := .fault, cause := c, startTimer := none, stopTimer := none, command := 0 } := rfl

/-- R110, R112: what an entry to FAULT makes outside the Fan Unit: the OUTPUT mark of the node it names, and FAN_FAULT. -/
@[simp] theorem fanFault_out (a : FanAcc) (f l n : Nat) (c : FanCause) :
    (fanFault a f l n c).out = a.out ++ [.mark l n .output, .attend .fanFault] := by
  simp [fanFault, Acc.say, Acc.put]

/-! ### The Input Map of the Occupancy Unit (R20, R40) -/

/-- The bay at an input after one record's entry is entered or released. -/
theorem Occ.bayAt_claim (o : Occ) (r : BayRec) (v : Option Nat) (l n i : Nat) :
    (o.claim r v).bayAt l n i =
      if r.enabled = true ∧ inputKey l n i = inputKey r.loop r.node r.input then v else o.bayAt l n i := by
  unfold Occ.claim Occ.bayAt
  cases r.enabled <;> simp [Tab.get_set]

@[simp] theorem Occ.bay_claim (o : Occ) (r : BayRec) (v : Option Nat) : (o.claim r v).bay = o.bay := by
  unfold Occ.claim; split <;> rfl

@[simp] theorem Occ.zone_claim (o : Occ) (r : BayRec) (v : Option Nat) : (o.claim r v).zone = o.zone := by
  unfold Occ.claim; split <;> rfl

@[simp] theorem Occ.node_claim (o : Occ) (r : BayRec) (v : Option Nat) : (o.claim r v).node = o.node := by
  unfold Occ.claim; split <;> rfl

@[simp] theorem Occ.bayAt_setBay (o : Occ) (i : Nat) (x : BayU) : (o.setBay i x).bayAt = o.bayAt := rfl

@[simp] theorem Occ.bayAt_setZone (o : Occ) (i : Nat) (x : OccZone) : (o.setZone i x).bayAt = o.bayAt := rfl

@[simp] theorem Occ.bayAt_setNode (o : Occ) (l n : Nat) (x : OccNode) : (o.setNode l n x).bayAt = o.bayAt := rfl

/-! ### Signs on a node -/

/-- An index that is not listed reads the default. -/
theorem Tab.get_of_not_mem {α : Type} {d : α} {t : Tab α} {i : Nat} (h : i ∉ Tab.keys t) : Tab.get d t i = d := by
  induction t with
  | nil => rfl
  | cons e t ih =>
    simp only [Tab.keys, List.map_cons, List.mem_cons, not_or] at h
    simp only [Tab.get, h.1, if_false]
    exact ih h.2

/-- A sign stands on a node exactly when its record in force enables it there. -/
theorem Guid.mem_signsOn {u : Guid} {l n i : Nat} :
    i ∈ u.signsOn l n ↔
      (u.sign i).inForce.enabled = true ∧ (u.sign i).inForce.loop = l ∧ (u.sign i).inForce.node = n := by
  simp only [Guid.signsOn, List.mem_filter, Bool.and_eq_true, decide_eq_true_eq, and_iff_right_iff_imp]
  intro h
  by_contra hn
  have : u.sign i = GSign.init := Tab.get_of_not_mem hn
  rw [this] at h
  exact absurd h.1 (by decide)

/-! ### The default ZONE records (R22) -/

/-- A place after every index of a list has been updated at its own place. -/
theorem foldl_places {U α : Type} (get : U → Nat → α) (upd : U → Nat → U) (f : α → α)
    (h : ∀ u z w, get (upd u z) w = if w = z then f (get u z) else get u w) (zs : List Nat) (hz : zs.Nodup) (u : U) (w : Nat) :
    get (zs.foldl upd u) w = if w ∈ zs then f (get u w) else get u w := by
  induction zs generalizing u with
  | nil => simp
  | cons z zs ih =>
    have hz' := List.nodup_cons.mp hz
    rw [List.foldl_cons, ih hz'.2, h]
    by_cases hw : w = z
    · subst hw; simp [hz'.1]
    · simp [hw]

/-- The Air Unit's zones once the image's defaults are in force. -/
theorem Air.zone_zoneDefaults (u : Air) (d : ZoneRec) (z : Nat) :
    (u.zoneDefaults d).zone z =
      if z < 16 then { u.zone z with inForce := (u.zone z).inForce.orDefault d } else u.zone z := by
  have := foldl_places (fun u z => Air.zone u z) (fun u z => u.setInForce z ((u.zone z).inForce.orDefault d))
    (fun x => { x with inForce := x.inForce.orDefault d })
    (fun u z w => by simp only [Air.setInForce, Air.zone_setZone]) zoneNums (by decide) u z
  simpa [Air.zoneDefaults, zoneNums] using this

/-- The Guidance Unit's zones once the image's defaults are in force. -/
theorem Guid.zone_zoneDefaults (u : Guid) (d : ZoneRec) (z : Nat) :
    (u.zoneDefaults d).zone z =
      if z < 16 then { u.zone z with inForce := (u.zone z).inForce.orDefault d } else u.zone z := by
  have := foldl_places (fun u z => Guid.zone u z) (fun u z => u.setInForce z ((u.zone z).inForce.orDefault d))
    (fun x => { x with inForce := x.inForce.orDefault d })
    (fun u z w => by simp only [Guid.setInForce, Guid.zone_setZone]) zoneNums (by decide) u z
  simpa [Guid.zoneDefaults, zoneNums] using this

end Sys2Proof.Machine
end

