-- ==== Sys2Proof/Laws/Beats.lean ====
section
/-! SUPPORT. Laws of beats: lanes, bytes of words, what a write of lanes does to every read, and when a beat is granted. -/

namespace Sys2Proof.Machine

/-! ### Lanes and words -/

/-- A lane of a mask made from a predicate. -/
theorem laneMask_getLsbD (p : Nat → Bool) {j : Nat} (h : j < 4) : (laneMask p).getLsbD j = p j := by
  unfold laneMask
  generalize h0 : p 0 = a
  generalize h1 : p 1 = b
  generalize h2 : p 2 = c
  generalize h3 : p 3 = d
  have hj : j = 0 ∨ j = 1 ∨ j = 2 ∨ j = 3 := by omega
  rcases hj with rfl | rfl | rfl | rfl
  · rw [h0]; clear h0 h1 h2 h3; revert a b c d; decide
  · rw [h1]; clear h0 h1 h2 h3; revert a b c d; decide
  · rw [h2]; clear h0 h1 h2 h3; revert a b c d; decide
  · rw [h3]; clear h0 h1 h2 h3; revert a b c d; decide

/-- Two lane masks with the same lanes are equal. -/
theorem lanes_ext {x y : BitVec 4} (h : ∀ j, j < 4 → x.getLsbD j = y.getLsbD j) : x = y :=
  BitVec.eq_of_getLsbD_eq (fun i hi => h i hi)

/-- A mask that keeps every enabled lane is the mask itself. -/
theorem laneMask_all (x : BitVec 4) (p : Nat → Bool) (h : ∀ j, j < 4 → x.getLsbD j = true → p j = true) :
    laneMask (fun j => x.getLsbD j && p j) = x := by
  apply lanes_ext
  intro j hj
  rw [laneMask_getLsbD _ hj]
  cases hx : x.getLsbD j
  · rfl
  · simp [h j hj hx]

/-- A mask is empty when no lane is kept. -/
theorem laneMask_eq_zero (p : Nat → Bool) : laneMask p = 0 ↔ ∀ j, j < 4 → p j = false := by
  constructor
  · intro h j hj
    rw [← laneMask_getLsbD p hj, h]; simp
  · intro h
    apply lanes_ext
    intro j hj
    rw [laneMask_getLsbD p hj, h j hj]; simp

/-- A byte of a word made from bytes. -/
theorem byteOf_wordOf (f : Nat → Byte) {j : Nat} (h : j < 4) : byteOf (wordOf f) j = f j := by
  have h0 := (f 0).isLt
  have h1 := (f 1).isLt
  have h2 := (f 2).isLt
  have h3 := (f 3).isLt
  have hw : (wordOf f).toNat = (f 0).toNat + 256 * (f 1).toNat + 65536 * (f 2).toNat + 16777216 * (f 3).toNat := by
    unfold wordOf
    rw [BitVec.toNat_ofNat]
    apply Nat.mod_eq_of_lt
    omega
  apply BitVec.eq_of_toNat_eq
  unfold byteOf
  rw [hw, BitVec.toNat_ofNat]
  have hj : j = 0 ∨ j = 1 ∨ j = 2 ∨ j = 3 := by omega
  rcases hj with rfl | rfl | rfl | rfl <;> simp <;> omega

/-- Bit `k` of byte `j` of a word. -/
theorem byteOf_getLsbD (w : Word) (j : Nat) {k : Nat} (h : k < 8) : (byteOf w j).getLsbD k = w.getLsbD (8 * j + k) := by
  unfold byteOf
  rw [BitVec.getLsbD_ofNat]
  simp only [h, decide_true, Bool.true_and]
  rw [show (256 : Nat) ^ j = 2 ^ (8 * j) by rw [Nat.pow_mul], Nat.testBit_div_two_pow]
  rw [BitVec.getLsbD, Nat.add_comm]

/-- What a write of the enabled lanes of a word does: an enabled lane reads its byte. -/
theorem Memory.read_lanes (m : List Host.Cell) (a : Nat) (lanes : BitVec 4) (f : Nat → Byte) {j : Nat} (hj : j < 4)
    (hl : lanes.getLsbD j = true) :
    Memory.read (Memory.writeAll m (((List.range 4).filter (fun i => lanes.getLsbD i)).map (fun i => (a + i, f i)))) (a + j)
      = f j := by
  have h := Memory.read_writeAll_mem m (((List.range 4).filter (fun i => lanes.getLsbD i)).map (fun i => (a + i, f i)))
    (by
      rw [List.map_map]
      apply List.Nodup.map
      · intro x y hxy; simpa using hxy
      · exact List.nodup_range.filter _)
    (a + j, f j) (by
      apply List.mem_map.mpr
      exact ⟨j, List.mem_filter.mpr ⟨List.mem_range.mpr hj, hl⟩, rfl⟩)
  exact h

/-- What a write of the enabled lanes of a word leaves: every address that is no enabled lane's. -/
theorem Memory.read_lanes_other (m : List Host.Cell) (a : Nat) (lanes : BitVec 4) (f : Nat → Byte) (x : Nat)
    (h : ∀ j, j < 4 → lanes.getLsbD j = true → x ≠ a + j) :
    Memory.read (Memory.writeAll m (((List.range 4).filter (fun i => lanes.getLsbD i)).map (fun i => (a + i, f i)))) x
      = Memory.read m x := by
  apply Memory.read_writeAll_other
  intro b hb
  obtain ⟨j, hj, rfl⟩ := List.mem_map.mp hb
  have hj := List.mem_filter.mp hj
  exact (h j (List.mem_range.mp hj.1) hj.2).symm

/-! ### The host's beats -/

/-- A beat is granted when no part work waits or the grant counter is below 16; a grant changes the port alone. -/
theorem State.hostGrant_some {s : State} (h : s.partWork = false ∨ s.port.counter < 16) :
    ∃ p, s.hostGrant = some { s with port := p } ∧ p.commit = s.port.commit ∧ p.wait = s.port.wait := by
  unfold State.hostGrant
  split
  · exact ⟨s.port, rfl, rfl, rfl⟩
  · split
    · rename_i hw
      have hc : s.port.counter < 16 := by rcases h with h | h <;> simp_all
      rw [if_pos hc]
      exact ⟨_, rfl, rfl, rfl⟩
    · exact ⟨_, rfl, rfl, rfl⟩

/-- A grant, when it is given, changes the port alone and keeps the grant counter at most at 16. -/
theorem State.hostGrant_port {s t : State} (h : s.hostGrant = some t) :
    (∃ p, t = { s with port := p }) ∧ (s.port.counter ≤ 16 → t.port.counter ≤ 16) ∧ t.port.commit = s.port.commit ∧
      t.port.wait = s.port.wait := by
  unfold State.hostGrant at h
  split at h
  · cases h; exact ⟨⟨s.port, rfl⟩, id, rfl, rfl⟩
  · split at h
    · split at h
      · cases h; refine ⟨⟨_, rfl⟩, fun _ => ?_, rfl, rfl⟩; simp; omega
      · cases h
    · cases h; exact ⟨⟨_, rfl⟩, fun _ => by simp, rfl, rfl⟩

/-- An access that is granted is performed. -/
theorem State.access_some {s t : State} {b : Beat} {a : Access} (h : (s.before a).hostGrant = some t) :
    s.access b a = t.perform b a := by
  unfold State.access
  simp only [h]

/-- One that is not granted stands on the hold line, and changes nothing but the port. -/
theorem State.access_none {s : State} {b : Beat} {a : Access} (h : (s.before a).hostGrant = none) :
    s.access b a = (s.before a).waits b a := by
  unfold State.access
  simp only [h]

/-- Nothing goes before a write, or a read that falls on no record. -/
@[simp] theorem State.before_write (s : State) (bs : List (Nat × Byte)) : s.before (.write bs) = s := rfl

@[simp] theorem State.before_read_none (s : State) : s.before (.read none) = s := rfl

@[simp] theorem State.before_ring (s : State) (bs : List (Nat × Byte)) (p : Bool) : s.before (.ring bs p) = s := rfl

@[simp] theorem State.before_table (s : State) (bs : List (Nat × Byte)) (t : Table) (i : Nat) (c : Bool) :
    s.before (.table bs t i c) = s := rfl

/-- A record that is not behind needs nothing before its read (R164). -/
theorem State.makeCurrent_none {s : State} {r : RecName} (h : s.mode ≠ .run ∨ s.behind r = false) : s.makeCurrent r = s := by
  unfold State.makeCurrent
  rcases h with h | h <;> simp [h]

/-- Where no beat stands on the hold line, a part grant sets the grant counter to 0 and does nothing else (R165). -/
theorem State.partGrant_none {s : State} (h : s.port.wait = none) :
    s.partGrant = { s with port := { s.port with counter := 0 } } := by
  unfold State.partGrant State.resume
  simp only [h]

@[simp] theorem State.partWork_beginBeat (s : State) (b : Beat) : (s.beginBeat b).partWork = s.partWork := by
  unfold State.beginBeat; split <;> rfl

/-- A beat is in the Live Window before its burst begins exactly when it is afterwards (R173). -/
@[simp] theorem State.inLive_beginBeat (s : State) (b : Beat) : (s.beginBeat b).inLive b = s.inLive b := by
  unfold State.beginBeat State.inLive
  split
  · simp [*]
  · rfl

@[simp] theorem State.beatClass_beginBeat (s : State) (b : Beat) : (s.beginBeat b).beatClass b = s.beatClass b := by
  have h : (s.beginBeat b).classify (Beat.word b) = s.classify (Beat.word b) := by
    unfold State.beginBeat; split <;> rfl
  simp [State.beatClass, h]

/-- A beat whose address lies in the Live Window is answered by it (R156). -/
theorem State.inLive_of_addr {s : State} {b : Beat} (h : 0xFFF000 ≤ Beat.word b) : s.inLive b = true := by
  simp [State.inLive, h]

/-- The first beat of a burst is classed by its address alone (R156). -/
theorem State.beatClass_first {s : State} {b : Beat} (h : b.index = 0) : s.beatClass b = s.classify (Beat.word b) := by
  unfold State.beatClass State.inLive State.classify
  by_cases ha : 0xFFF000 ≤ Beat.word b <;> simp [h, ha]

@[simp] theorem State.guarded_beginBeat (s : State) (b : Beat) (t : Table) (a : Nat) :
    (s.beginBeat b).guarded t a = s.guarded t a := by
  unfold State.beginBeat; split <;> rfl

@[simp] theorem State.recAddr_beginBeat (s : State) (b : Beat) (r : RecName) : (s.beginBeat b).recAddr r = s.recAddr r := by
  unfold State.beginBeat; split <;> rfl

@[simp] theorem State.partBytes_beginBeat (s : State) (b : Beat) (r : RecName) : (s.beginBeat b).partBytes r = s.partBytes r := by
  unfold State.beginBeat; split <;> rfl

@[simp] theorem State.beginBeat_commit (s : State) (b : Beat) : (s.beginBeat b).port.commit = s.port.commit := by
  unfold State.beginBeat; split <;> rfl

@[simp] theorem State.beginBeat_counter (s : State) (b : Beat) : (s.beginBeat b).port.counter = s.port.counter := by
  unfold State.beginBeat; split <;> rfl

@[simp] theorem State.beginBeat_readData (s : State) (b : Beat) : (s.beginBeat b).port.readData = s.port.readData := by
  unfold State.beginBeat; split <;> rfl

/-- A beat touches nothing of the Live Window but the snapshot. -/
theorem State.beginBeat_live (s : State) (b : Beat) :
    (s.beginBeat b).live = if b.index = 0 then { s.live with snapshot := none } else s.live := by
  unfold State.beginBeat; split <;> rfl

@[simp] theorem State.endBeat_commit (s : State) (b : Beat) : (s.endBeat b).port.commit = s.port.commit := by
  unfold State.endBeat; split <;> rfl

@[simp] theorem State.endBeat_counter (s : State) (b : Beat) : (s.endBeat b).port.counter = s.port.counter := by
  unfold State.endBeat; split <;> rfl

@[simp] theorem State.endBeat_readData (s : State) (b : Beat) : (s.endBeat b).port.readData = s.port.readData := by
  unfold State.endBeat; split <;> rfl

@[simp] theorem State.noAccess_commit (s : State) (b : Beat) : (s.noAccess b).port.commit = s.port.commit := by
  simp [State.noAccess]

@[simp] theorem State.noAccess_counter (s : State) (b : Beat) : (s.noAccess b).port.counter = s.port.counter := by
  simp [State.noAccess]

@[simp] theorem State.noAccess_readData (s : State) (b : Beat) : (s.noAccess b).port.readData = s.port.readData := by
  simp [State.noAccess]

/-- R7: the held low byte is gone after a beat that does not complete it. -/
@[simp] theorem State.dropHeld_held (s : State) : s.dropHeld.capture.held = none := by
  unfold State.dropHeld; split <;> simp_all

/-- Marks, applied records and maps are not touched by the loss of the held byte. -/
theorem State.dropHeld_kept (s : State) : s.capture.kept s.dropHeld.capture := by
  unfold State.dropHeld; split <;> exact ⟨rfl, rfl, rfl⟩

/-- With no byte held, nothing is dropped. -/
theorem State.dropHeld_none {s : State} (h : s.capture.held = none) : s.dropHeld = s := by
  unfold State.dropHeld; rw [h]

/-- The loss of a held byte changes Lane Drops alone among the window's registers. -/
theorem State.dropHeld_live (s : State) : ∃ n, s.dropHeld.live = { s.live with laneDrops := n } := by
  unfold State.dropHeld
  split
  · exact ⟨s.live.laneDrops, rfl⟩
  · exact ⟨_, rfl⟩

/-- The host presents its beat when none is held or stands on the hold line. -/
theorem State.hostBeat_free {s : State} (b : Beat) (f : State → State) (h : s.open_) : s.hostBeat b f = f (s.beginBeat b) := by
  unfold State.hostBeat; rw [h.1, h.2]; rfl

/-- Otherwise it presents none. -/
theorem State.hostBeat_held {s : State} (b : Beat) (f : State → State) (h : ¬ s.open_) : s.hostBeat b f = s := by
  unfold State.hostBeat
  rw [if_pos]
  by_cases hc : s.port.commit = none
  · have hw : s.port.wait ≠ none := fun hw => h ⟨hc, hw⟩
    cases hx : s.port.wait with
    | none => exact absurd hx hw
    | some _ => simp
  · cases hx : s.port.commit with
    | none => exact absurd hx hc
    | some _ => simp

/-- The arrival of a beat changes the port and the snapshot alone. -/
theorem State.beginBeat_eq (s : State) (b : Beat) : ∃ p sn, s.beginBeat b = { s with port := p, live := { s.live with snapshot := sn } } ∧
    p.commit = s.port.commit ∧ p.wait = s.port.wait ∧ p.counter = s.port.counter ∧ p.readData = s.port.readData ∧
    sn = if b.index = 0 then none else s.live.snapshot := by
  unfold State.beginBeat
  split
  · exact ⟨_, none, rfl, rfl, rfl, rfl, rfl, rfl⟩
  · exact ⟨_, s.live.snapshot, rfl, rfl, rfl, rfl, rfl, rfl⟩

/-- The end of a beat changes the port alone. -/
theorem State.endBeat_eq (s : State) (b : Beat) : ∃ p, s.endBeat b = { s with port := p } ∧ p.commit = s.port.commit ∧
    p.wait = s.port.wait ∧ p.counter = s.port.counter ∧ p.readData = s.port.readData := by
  unfold State.endBeat
  split
  · exact ⟨_, rfl, rfl, rfl, rfl, rfl⟩
  · exact ⟨_, rfl, rfl, rfl, rfl, rfl⟩

/-- So does a beat that is not presented to memory. -/
theorem State.noAccess_eq (s : State) (b : Beat) : ∃ p, s.noAccess b = { s with port := p } ∧ p.commit = s.port.commit ∧
    p.wait = s.port.wait ∧ p.counter = s.port.counter ∧ p.readData = s.port.readData := by
  unfold State.noAccess
  obtain ⟨p, h, h1, h2, h3, h4⟩ := State.endBeat_eq { s with port := { s.port with single := true } } b
  exact ⟨p, h, h1, h2, h3, h4⟩

/-- A beat that arrives where it can be granted is granted, and changes the port and the snapshot alone. -/
theorem State.arrives {s : State} (b : Beat) (h : s.grantable) : ∃ p sn,
    (s.beginBeat b).hostGrant = some { s with port := p, live := { s.live with snapshot := sn } } ∧ p.commit = none ∧
      p.wait = none := by
  obtain ⟨q, sn, he, hc, hw, hn, -⟩ := State.beginBeat_eq s b
  rw [he]
  obtain ⟨p, hp, hpc, hpw⟩ := State.hostGrant_some (s := { s with port := q, live := { s.live with snapshot := sn } })
    (h.2.imp id (fun h => by rw [← hn] at h; exact h))
  exact ⟨p, sn, hp, hpc.trans (hc.trans h.1.1), hpw.trans (hw.trans h.1.2)⟩

/-- The word address of a beat on a table record is the record's address and the offset. -/
theorem State.classify_table {s : State} {a : Nat} {t : Table} {i off : Nat} (h : s.classify a = .table t i off) :
    s.recAddr (.record t i) + off = a ∧ off < recSize t := by
  unfold State.classify at h
  by_cases h1 : 0xFFF000 ≤ a
  · rw [if_pos h1] at h; cases h
  · rw [if_neg h1] at h
    by_cases h2 : s.windowsInEffect = true
    · rw [if_pos h2] at h
      cases hf : tables.find? (fun t => windowHolds (s.window (tableId t)) a) with
      | none =>
        rw [hf] at h
        simp only at h
        split at h
        · split at h
          · cases h
          · split at h <;> cases h
        · cases h
      | some u =>
        rw [hf] at h
        simp only at h
        split at h
        · injection h with hu hi ho
          subst hu hi ho
          have hp := List.find?_some hf
          simp only [windowHolds, Bool.and_eq_true, decide_eq_true_eq] at hp
          have hr : 0 < recSize u := by cases u <;> decide
          refine ⟨?_, Nat.mod_lt _ hr⟩
          have := Nat.div_add_mod (a - 256 * (s.window (tableId u)).base) (recSize u)
          simp only [State.recAddr]
          omega
        · cases h
    · rw [if_neg h2] at h; cases h

/-- Nothing replaced counts nothing (R5). -/
@[simp] theorem Live.clamp_zero (v : Live) : v.clamp 0 = v := by
  have h := v.clamps.isLt
  have : satInc v.clamps 0 = v.clamps := by
    apply BitVec.eq_of_toNat_eq
    simp only [satInc, BitVec.toNat_ofNat]
    omega
  unfold Live.clamp
  rw [this]

/-- A beat that has lost no lane counts nothing (R157). -/
@[simp] theorem Live.laneDrop_false (v : Live) : v.laneDrop false = v := rfl

/-- A byte of a beat's data. -/
theorem Beat.bytes_getD (b : Beat) {j : Nat} (h : j < 4) : (Beat.bytes b).getD j 0 = byteOf b.data j := by
  simp [Beat.bytes, h, List.getD_eq_getElem?_getD]

/-! ### A beat that has stood on the hold line -/

/-- R4: what a staging beat does: it stages the record, lists it with Verdict STAGED the first time, and touches nothing else. -/
theorem State.stage_spec (s : State) (t : Table) (i : Nat) :
    { s.stage t i with capture := s.capture, reflect := s.reflect } = s ∧ ((s.stage t i).capture.mark t i).staged = true ∧
      ((s.capture.mark t i).staged = true → s.stage t i = s) ∧
      ((s.capture.mark t i).staged = false → ((s.stage t i).capture.mark t i).verdict = 2 ∧
        .record t i ∈ (s.stage t i).reflect.list ∧ (s.stage t i).capture.applied = s.capture.applied ∧
        (s.stage t i).maps = s.maps) := by
  by_cases h : (s.capture.mark t i).staged = true
  · have e : s.stage t i = s := by unfold State.stage; rw [if_pos h]
    rw [e]
    refine ⟨rfl, h, fun _ => rfl, fun h' => ?_⟩
    rw [h] at h'; cases h'
  · have e : s.stage t i =
      { s with capture := s.capture.setMark t i { s.capture.mark t i with staged := true, verdict := 2 },
               reflect := s.reflect.join (.record t i) } := by unfold State.stage; rw [if_neg h]
    rw [e]
    exact ⟨rfl, by simp, fun h' => absurd h' h, fun _ => ⟨by simp, Reflect.mem_join _ _, rfl, rfl⟩⟩

/-- A beat that meets a free port with the grant counter at 0 is granted, and the counter stands at 1 at most (R165). -/
theorem State.hostGrant_fresh {s : State} (hg : s.port.grant = false) (hc : s.port.counter = 0) :
    ∃ p, s.hostGrant = some { s with port := p } ∧ p.counter ≤ 1 ∧ p.wait = s.port.wait ∧ p.commit = s.port.commit := by
  unfold State.hostGrant
  rw [hg, hc]
  cases s.partWork
  · exact ⟨_, rfl, by simp, rfl, rfl⟩
  · exact ⟨_, rfl, by simp, rfl, rfl⟩

/-- R164, R165: what a beat from the hold line does right after the part's grant, but for a read of a record that is behind. -/
theorem State.access_standing {m : State} (b : Beat) (a : Access) (hg : m.port.grant = false) (hc : m.port.counter = 0)
    (hw : m.port.wait = none) (ha : ∀ r, a = .read (some r) → m.mode ≠ .run ∨ m.behind r = false) :
    m.standing b a (m.access b a) := by
  obtain ⟨p, hp, hpc, hpw, hpk⟩ := State.hostGrant_fresh hg hc
  have hb : m.before a = m := by
    cases a with
    | read r => cases r with
      | none => rfl
      | some r => exact State.makeCurrent_none (ha r rfl)
    | _ => rfl
  rw [show m.access b a = ({ m with port := p } : State).perform b a from State.access_some (by rw [hb]; exact hp)]
  cases a with
  | write ws =>
    obtain ⟨q, hq, h1, h2, h3, h4⟩ := State.endBeat_eq (State.store { m with port := p } ws) b
    rw [show ({ m with port := p } : State).perform b (.write ws) = _ from hq]
    exact ⟨h2.trans (hpw.trans hw), le_of_eq_of_le h3 hpc, rfl, h1.trans hpk⟩
  | ring ws pr =>
    obtain ⟨q, hq, h1, h2, h3, h4⟩ := State.endBeat_eq
      { (State.store { m with port := p } ws) with ring :=
          { (State.store { m with port := p } ws).ring with
              causeProducer := (State.store { m with port := p } ws).ring.causeProducer || pr } } b
    rw [show ({ m with port := p } : State).perform b (.ring ws pr) = _ from hq]
    exact ⟨h2.trans (hpw.trans hw), le_of_eq_of_le h3 hpc, h1.trans hpk, rfl⟩
  | read r =>
    obtain ⟨q, hq, h1, h2, h3, h4⟩ := State.endBeat_eq
      { m with port := { p with readData := Memory.readWord m.mem (Beat.word b) } } b
    have e : ({ m with port := p } : State).perform b (.read r) = { m with port := q } := hq
    rw [e]
    refine ⟨h2.trans (hpw.trans hw), le_of_eq_of_le h3 hpc, ?_⟩
    cases r with
    | none => exact ⟨rfl, h1.trans hpk, h4⟩
    | some r =>
      refine ⟨rfl, h1.trans hpk, h4, fun _ => ⟨rfl, rfl⟩, fun hr hl => ?_, fun hr bs hs => ?_⟩ <;>
        (have hn := (ha r rfl).resolve_left (fun h => h hr)
         simp [State.behind] at hn)
      · exact absurd hl hn.1
      · rw [hs] at hn; simp at hn
  | table ws k i c =>
    cases c with
    | true =>
      have e : ({ m with port := p } : State).perform b (.table ws k i true) =
        State.stall { (State.store { m with port := p } ws) with port := { p with commit := some (k, i) } } := rfl
      rw [e]
      exact ⟨hpw.trans hw, hpc, rfl, fun _ => ⟨rfl, rfl, rfl⟩, fun h => by cases h⟩
    | false =>
      have e : ({ m with port := p } : State).perform b (.table ws k i false) =
        ((State.store { m with port := p } ws).stage k i).endBeat b := rfl
      rw [e]
      obtain ⟨h0, h1, h2, h3⟩ := State.stage_spec (State.store { m with port := p } ws) k i
      have hport : ((State.store { m with port := p } ws).stage k i).port = p := congrArg State.port h0
      obtain ⟨q, hq, g1, g2, g3, g4⟩ := State.endBeat_eq ((State.store { m with port := p } ws).stage k i) b
      rw [hport] at g1 g2 g3
      rw [hq]
      refine ⟨g2.trans (hpw.trans hw), le_of_eq_of_le g3 hpc, ?_, (fun h => by cases h), fun _ => ⟨g1.trans hpk, h1, ?_, h3⟩⟩
      · exact congrArg (fun s : State => { s with port := m.port }) h0
      · intro hs
        have := h2 hs
        exact ⟨(congrArg State.capture this :), (congrArg State.reflect this :)⟩

end Sys2Proof.Machine
end

