-- ==== Sys2Proof/Laws/Commands.lean ====
section
/-! SUPPORT. Laws of the bursts of a copy, of the lock bits, and of the beat of a device command. -/

namespace Sys2Proof.Machine

/-! ### Bursts (R163) -/

/-- The bursts of a copy as places in it: they depend on the offsets alone. -/
def burstPlaces (offs : List Nat) : List (List Nat) :=
  let ws := offs.foldl (fun ws o => if o / 4 ∈ ws then ws else ws ++ [o / 4]) []
  (cutWords ws.length ws).map (fun g => (List.range offs.length).filter (fun i => decide (offs.getD i 0 / 4 ∈ g)))

/-- The offsets of a copy are the listed part-owned bytes of its record. -/
theorem partBytes_offsets (s : State) (r : RecName) : (s.partBytes r).map (fun p => p.1) = listedPart r := by
  rcases r with ⟨t, i⟩ | _ | i
  · cases t <;> rfl
  · rfl
  · rfl

/-- The words of a copy depend on its offsets alone. -/
theorem wordsOf_offsets (bs : List (Nat × Byte)) :
    wordsOf bs = (bs.map (fun p => p.1)).foldl (fun ws o => if o / 4 ∈ ws then ws else ws ++ [o / 4]) [] := by
  unfold wordsOf; rw [List.foldl_map]

/-- A list as its places. -/
theorem eq_map_getD {α : Type} (d : α) (bs : List α) : bs = (List.range bs.length).map (fun i => bs.getD i d) := by
  apply List.ext_getElem
  · simp
  · intro i h h'; simp [List.getD_eq_getElem?_getD, h]

/-- The bursts of a copy, by the places of its offsets. -/
theorem burstsOf_places (bs : List (Nat × Byte)) :
    burstsOf bs = (burstPlaces (bs.map (fun p => p.1))).map (fun g => g.map (fun i => bs.getD i (0, 0))) := by
  unfold burstsOf burstPlaces
  rw [wordsOf_offsets]
  simp only [List.map_map]
  apply List.map_congr_left
  intro g _
  conv => lhs; rw [eq_map_getD (0, 0) bs]
  rw [List.filter_map, List.length_map]
  congr 1
  apply List.filter_congr
  intro i hi
  have hi := List.mem_range.mp hi
  simp [List.getD_eq_getElem?_getD, hi]

/-- No offset stands twice in a copy. -/
theorem partBytes_nodup (s : State) (r : RecName) : ((s.partBytes r).map (fun p => p.1)).Nodup := by
  rw [partBytes_offsets]
  rcases r with ⟨t, i⟩ | _ | i
  · have h : ∀ t, (listedPart (.record t 0)).Nodup := by intro t; cases t <;> decide
    have := h t
    cases t <;> exact this
  · decide
  · show (listedPart (.slot 0)).Nodup
    decide

/-! ### Device commands (R160, R174) -/

/-- The bits of a run of guard indices. -/
theorem lockRange_getLsbD (base len x : Nat) (h : x < 256) :
    (lockRange base len).getLsbD x = decide (base ≤ x ∧ x < base + len) := by
  unfold lockRange
  have gen : ∀ (n : Nat) (m : BitVec 256), ((List.range n).foldl (fun m k => m ||| BitVec.ofNat 256 (2 ^ (base + k))) m).getLsbD x
      = (m.getLsbD x || decide (base ≤ x ∧ x < base + n)) := by
    intro n
    induction n with
    | zero => intro m; simp
    | succ n ih =>
      intro m
      rw [List.range_succ, List.foldl_append, List.foldl_cons, List.foldl_nil, BitVec.getLsbD_or, ih, BitVec.getLsbD_ofNat]
      simp only [h, decide_true, Bool.true_and, Nat.testBit_two_pow]
      by_cases hx : base + n = x
      · have : base ≤ x ∧ x < base + (n + 1) := by omega
        simp [hx, this]
      · have : (base ≤ x ∧ x < base + (n + 1)) ↔ (base ≤ x ∧ x < base + n) := by omega
        simp [hx, this]
  rw [gen]; simp

/-- A device command's beat, where the host can present one. -/
theorem State.takeCommand_eq (s : State) (code : Byte) (a : CmdArgs) (f : State → State) (h : s.open_) :
    ∃ (p : Port) (c : Capture) (w : Word) (sn : Option (Nat × List Byte)) (n : BitVec 32), s.takeCommand code a f =
      f { s with port := p, capture := c, live := { s.live with cmdWord := w, snapshot := sn, laneDrops := n } } ∧
      s.capture.kept c ∧ (s.capture.held = none → n = s.live.laneDrops ∧ c = s.capture) ∧
      p.commit = none ∧ p.wait = none ∧ p.counter = s.port.counter := by
  unfold State.takeCommand
  rw [State.hostBeat_free _ _ h]
  obtain ⟨q, sn, he, h1, hw, h2, h3, -⟩ := State.beginBeat_eq s (commandBeat code a)
  rw [he]
  unfold State.liveBeat
  set u : State := { s with port := q, live := { s.live with snapshot := sn } }
  have hd : ∃ (c : Capture) (n : BitVec 32), u.dropHeld = { u with capture := c, live := { u.live with laneDrops := n } } ∧
      s.capture.kept c ∧ (s.capture.held = none → n = s.live.laneDrops ∧ c = s.capture) := by
    unfold State.dropHeld
    cases hh : u.capture.held with
    | none => exact ⟨u.capture, u.live.laneDrops, rfl, ⟨rfl, rfl, rfl⟩, fun _ => ⟨rfl, rfl⟩⟩
    | some x => exact ⟨_, _, rfl, ⟨rfl, rfl, rfl⟩, fun hn => nomatch hn⟩
  obtain ⟨c, n, hd, hk, hn⟩ := hd
  rw [hd]
  obtain ⟨p, hp, g1, gw, g2, g3⟩ :=
    State.noAccess_eq { u with capture := c, live := { u.live with laneDrops := n } } (commandBeat code a)
  rw [hp]
  unfold State.takeSnapshot
  split <;> exact ⟨p, c, _, _, n, rfl, hk, hn, g1.trans (h1.trans h.1), gw.trans (hw.trans h.2), g2.trans h2⟩

end Sys2Proof.Machine
end

