-- ==== Sys2Proof/Laws/Queues.lean ====
section
/-! SUPPORT. Laws of the Host Queues: where no entry stands at a node whose state ends it, the checks of R151 change nothing. -/

namespace Sys2Proof.Machine

/-- An entry that stands earliest stands in the queue (R151). -/
theorem mem_of_mem_earliest {seen : List Nat} {q : List Entry} {e : Entry} (h : e ∈ earliest seen q) : e ∈ q := by
  induction q generalizing seen with
  | nil => cases h
  | cons x xs ih =>
    unfold earliest at h
    split at h
    · exact List.mem_cons_of_mem _ (ih h)
    · split at h
      · exact List.mem_cons_of_mem _ (ih h)
      · rcases List.mem_cons.mp h with rfl | h
        · simp
        · exact List.mem_cons_of_mem _ (ih h)

/-- The dispatch checks of a loop change nothing when they end no entry that stands earliest (R151). -/
theorem settle_none {L : Loop} {l : Nat} {a : RingAcc} (h : ∀ e ∈ earliest [] (a.u.queue l), stateCheck L e = none) (k : Nat) :
    settle L l k a = a := by
  cases k with
  | zero => rfl
  | succ k =>
    unfold settle
    have : (earliest [] (a.u.queue l)).find? (fun e => (stateCheck L e).isSome) = none := by
      apply List.find?_eq_none.mpr
      intro e he
      simp [h e he]
    rw [this]

theorem settleQueue_none {L : Loop} {l : Nat} {a : RingAcc} (h : ∀ e ∈ earliest [] (a.u.queue l), stateCheck L e = none) :
    settleQueue L l a = a := settle_none h _

/-- A completion takes exactly its own entry out of its queue (R154). -/
@[simp] theorem finishEntry_queue (a : RingAcc) (l : Nat) (e : Entry) (x : Slot) :
    (finishEntry a l e x).u.queue l = (a.u.queue l).erase e := by
  simp [finishEntry, completeSlot, Ring.queue, Ring.setQueue, Ring.setSlot, Tab.get_set_same]

/-- And no entry out of another loop's queue. -/
theorem finishEntry_queue_ne (a : RingAcc) {l k : Nat} (e : Entry) (x : Slot) (h : k ≠ l) :
    (finishEntry a l e x).u.queue k = a.u.queue k := by
  simp [finishEntry, completeSlot, Ring.queue, Ring.setQueue, Ring.setSlot, Tab.get_set_other _ _ _ h]

/-- The dispatch checks, made as often as the queue is long, leave no entry that they would end (R151). -/
theorem settle_settled (L : Loop) (l k : Nat) {a : RingAcc} (h : (a.u.queue l).length ≤ k) :
    ∀ e ∈ earliest [] ((settle L l k a).u.queue l), stateCheck L e = none := by
  induction k generalizing a with
  | zero =>
    intro e he
    have : a.u.queue l = [] := List.length_eq_zero_iff.mp (Nat.le_zero.mp h)
    unfold settle at he
    rw [this] at he
    cases he
  | succ k ih =>
    unfold settle
    cases hf : (earliest [] (a.u.queue l)).find? (fun e => (stateCheck L e).isSome) with
    | none =>
      intro e he
      have := List.find?_eq_none.mp hf e he
      simpa using this
    | some x =>
      have hm := mem_of_mem_earliest (List.mem_of_find?_eq_some hf)
      have hx : (stateCheck L x).isSome = true := List.find?_some (p := fun e => (stateCheck L e).isSome) hf
      cases hc : stateCheck L x with
      | none => rw [hc] at hx; cases hx
      | some p =>
        intro e he
        simp only [hc] at he
        refine ih ?_ e he
        rw [completeEntry, finishEntry_queue, List.length_erase_of_mem hm]
        have := List.length_pos_of_mem hm
        omega

/-- Every queue whose checks have been made is settled (R151; log 26). -/
theorem settleQueue_settled (L : Loop) (l : Nat) (a : RingAcc) :
    ∀ e ∈ earliest [] ((settleQueue L l a).u.queue l), stateCheck L e = none := settle_settled L l _ (Nat.le_refl _)

/-- The ring's event where no entry is ended: the unit's state and effects are the event's own. -/
theorem State.withRing_settled {s : State} {a : RingAcc} (h : ∀ l, ∀ e ∈ earliest [] (a.u.queue l), stateCheck (s.loop l) e = none) :
    s.withRing a = State.emit { s with ring := a.u } a.out := by
  unfold State.withRing loopNums
  simp only [Acc.each_cons, Acc.each_nil]
  rw [settleQueue_none (h 0), settleQueue_none (h 1), settleQueue_none (h 2), settleQueue_none (h 3)]

/-- The controller's event where no entry is ended by the loop as the event leaves it. -/
theorem State.withCtl_settled {s : State} {l : Nat} {f : CtlAcc → CtlAcc} {a : CtlAcc}
    (ha : f (Acc.start { L := s.loop l, ring := s.ring, free := s.free }) = a)
    (h : ∀ e ∈ earliest [] (a.u.ring.queue l), stateCheck a.u.L e = none) :
    s.withCtl l f = State.emit { s with loops := Tab.set Loop.init s.loops l a.u.L, ring := a.u.ring, free := a.u.free } a.out := by
  unfold State.withCtl CtlAcc.onRing
  rw [ha]
  simp only
  rw [settleQueue_none h]

/-- An effect that touches no mark and no hard lock. -/
def Eff.plain : Eff → Bool
  | .reflect _ | .send _ | .attend _ => true
  | .mark _ _ _ | .unmark _ _ _ | .hardLocks _ => false

/-- Such effects change no loop and no lock. -/
theorem State.emit_plain (s : State) (es : List Eff) (h : ∀ e ∈ es, e.plain = true) :
    (s.emit es).loops = s.loops ∧ (s.emit es).guard = s.guard := by
  induction es generalizing s with
  | nil => exact ⟨rfl, rfl⟩
  | cons e es ih =>
    rw [State.emit_cons, (ih _ (fun x hx => h x (by simp [hx]))).1, (ih _ (fun x hx => h x (by simp [hx]))).2]
    have he := h e (by simp)
    cases e <;> first | exact ⟨rfl, rfl⟩ | cases he

/-- The completion of a slot has plain effects alone. -/
theorem completeEntry_plain {a : RingAcc} (l : Nat) (e : Entry) (st d : Nat) (h : ∀ x ∈ a.out, x.plain = true) :
    ∀ x ∈ (completeEntry a l e st d).out, x.plain = true := by
  intro x hx
  simp only [completeEntry, finishEntry, completeSlot, Acc.put_out, Acc.say_out, List.mem_append, List.mem_singleton] at hx
  rcases hx with ((hx | rfl) | rfl) | rfl
  · exact h x hx
  all_goals rfl

/-- Nor have the dispatch checks. -/
theorem settle_plain (L : Loop) (l k : Nat) {a : RingAcc} (h : ∀ x ∈ a.out, x.plain = true) :
    ∀ x ∈ (settle L l k a).out, x.plain = true := by
  induction k generalizing a with
  | zero => exact h
  | succ k ih =>
    unfold settle
    split
    · exact h
    · split
      · exact h
      · exact ih (completeEntry_plain _ _ _ _ h)

/-! ### Fetch attempts (R148, R165) -/

/-- With no fetch in progress an attempt that reads begins with Producer. -/
theorem fetchBurst_idle {s : State} (h : s.ring.fetching = .idle) (hr : s.ring.reads = true) : fetchBurst s = readProducer s := by
  simp [fetchBurst, h, hr]

/-- An attempt that a departure has caused in OVERRUN reads nothing and clears its cause. -/
theorem fetchBurst_none {s : State} (hr : s.ring.reads = false) :
    fetchBurst s = Acc.start { s.ring with causeDeparture := false } := by
  have h : s.ring.fetching = .idle := by
    simp only [Ring.reads, Bool.or_eq_false_iff, decide_eq_false_iff_not, ne_eq, Decidable.not_not] at hr
    exact hr.1.1
  simp [fetchBurst, h, hr]

/-- The first burst of a slot is kept, and nothing else happens. -/
theorem fetchBurst_first {s : State} {p : BitVec 16} (h : s.ring.fetching = .slot p) :
    fetchBurst s =
      Acc.start { s.ring with fetching := .rest p (Memory.readAll s.mem (s.recAddr (.slot s.ring.index)) 16) } := by
  simp [fetchBurst, h]

/-- With the second burst the slot is treated. -/
theorem fetchBurst_second {s : State} {p : BitVec 16} {head : List Byte} (h : s.ring.fetching = .rest p head) :
    fetchBurst s = takeSlot s p (head ++ Memory.readAll s.mem (s.recAddr (.slot s.ring.index) + 16) 8) (Acc.start s.ring) := by
  simp [fetchBurst, h]

/-- The three outcomes of a slot read at fetch (R149, R150): refused and completed, taken into its Host Queue, or held back. -/
theorem takeSlot_cases (s : State) (p : BitVec 16) (bs : List Byte) (a : RingAcc) :
    (∃ st d, slotCheck s bs = some (st, d) ∧ takeSlot s p bs a = fetchOn p (advance s (refuseSlot a a.u.index bs st d))) ∨
      (slotCheck s bs = none ∧ (a.u.queue (num8 bs 1)).length < 8 ∧
        takeSlot s p bs a = fetchOn p (advance s (queueSlot a a.u.index bs))) ∨
      (slotCheck s bs = none ∧ 8 ≤ (a.u.queue (num8 bs 1)).length ∧
        takeSlot s p bs a = a.put { a.u with blocked := some a.u.index, fetching := .idle }) := by
  unfold takeSlot
  cases hc : slotCheck s bs with
  | some v => exact .inl ⟨v.1, v.2, rfl, rfl⟩
  | none =>
    by_cases hq : (a.u.queue (num8 bs 1)).length < 8
    · exact .inr (.inl ⟨rfl, hq, by simp [hq]⟩)
    · exact .inr (.inr ⟨rfl, by omega, by simp [hq]⟩)

/-- A refusal at fetch leaves every Host Queue as it is (R149). -/
@[simp] theorem refuseSlot_queues (a : RingAcc) (i : Nat) (bs : List Byte) (st d : Nat) :
    (refuseSlot a i bs st d).u.queues = a.u.queues := rfl

/-- A slot taken in stands last in the Host Queue of its loop (R150). -/
theorem queueSlot_queue (a : RingAcc) (i : Nat) (bs : List Byte) (l : Nat) :
    (queueSlot a i bs).u.queue l =
      if l = num8 bs 1 then a.u.queue l ++ [entryOf a.u.taken i bs] else a.u.queue l := by
  show Tab.get [] (Tab.set [] a.u.queues (num8 bs 1) _) l = _
  rw [Tab.get_set]
  split
  · subst_vars; rfl
  · rfl

/-- Going on, and the advance of the fetch index, leave every Host Queue as it is. -/
@[simp] theorem fetchOn_advance_queues (s : State) (p : BitVec 16) (a : RingAcc) :
    (fetchOn p (advance s a)).u.queues = a.u.queues := rfl

end Sys2Proof.Machine
end

