-- ==== Sys2Proof/Laws/Controllers.lean ====
section
/-! SUPPORT. What the events of a loop's controller do outside the loop: they make plain effects alone, so that a mark of the
loop is changed only where the controller writes it. -/

namespace Sys2Proof.Machine

/-- Every effect made so far is plain. -/
def CtlAcc.plain (a : CtlAcc) : Prop := ∀ e ∈ a.out, e.plain = true

@[simp] theorem CtlAcc.plain_start (u : Ctl) : CtlAcc.plain (Acc.start u) := fun _ h => nomatch h

@[simp] theorem CtlAcc.plain_send (a : CtlAcc) (m : Msg) : CtlAcc.plain (Acc.say a (.send m)) ↔ a.plain := by
  simp [CtlAcc.plain, or_imp, forall_and, Eff.plain]

@[simp] theorem CtlAcc.plain_attend (a : CtlAcc) (x : Attn) : CtlAcc.plain (Acc.say a (.attend x)) ↔ a.plain := by
  simp [CtlAcc.plain, or_imp, forall_and, Eff.plain]

@[simp] theorem CtlAcc.plain_attendIf (a : CtlAcc) (c : Bool) (x : Attn) :
    CtlAcc.plain (Acc.sayIf a c (.attend x)) ↔ a.plain := by
  unfold Acc.sayIf; split <;> simp

@[simp] theorem CtlAcc.plain_setL (a : CtlAcc) (L : Loop) : (a.setL L).plain ↔ a.plain := Iff.rfl

@[simp] theorem CtlAcc.plain_put (a : CtlAcc) (u : Ctl) : CtlAcc.plain (Acc.put a u) ↔ a.plain := Iff.rfl

@[simp] theorem CtlAcc.plain_onNode (a : CtlAcc) (n : Nat) (f : Node → Node) : (onNode a n f).plain ↔ a.plain := Iff.rfl

@[simp] theorem CtlAcc.plain_reMark (a : CtlAcc) (n : Nat) (m : Mark) : (reMark a n m).plain ↔ a.plain := Iff.rfl

theorem CtlAcc.plain_each {α : Type} (xs : List α) (f : CtlAcc → α → CtlAcc) (a : CtlAcc)
    (h : ∀ a x, (f a x).plain ↔ a.plain) : CtlAcc.plain (Acc.each a xs f) ↔ a.plain := by
  induction xs generalizing a with
  | nil => exact Iff.rfl
  | cons x xs ih => rw [Acc.each_cons, ih, h]

@[simp] theorem CtlAcc.plain_hostEnds (l slot id n : Nat) (a : CtlAcc) (o : StepOutcome) : (hostEnds l a slot id n o).plain ↔ a.plain :=
  CtlAcc.plain_send _ _

@[simp] theorem CtlAcc.plain_tellOwner (l : Nat) (a : CtlAcc) (k : NodeKind) (b : Body) : (tellOwner l a k b).plain ↔ a.plain := by
  unfold tellOwner; split
  · exact Iff.rfl
  · exact CtlAcc.plain_send _ _

@[simp] theorem CtlAcc.plain_setNodeState (s : State) (l : Nat) (a : CtlAcc) (n : Nat) (st : NodeState) :
    (setNodeState s l a n st).plain ↔ a.plain := by
  unfold setNodeState; dsimp only; split <;> simp

@[simp] theorem CtlAcc.plain_dropRequest (l : Nat) (a : CtlAcc) (n st d : Nat) : (dropRequest l a n st d).plain ↔ a.plain := by
  unfold dropRequest; dsimp only; split
  · simp
  · split <;> simp

@[simp] theorem CtlAcc.plain_failNode (s : State) (l : Nat) (a : CtlAcc) (n : Nat) (c : FailCause) :
    (failNode s l a n c).plain ↔ a.plain := by simp [failNode]

@[simp] theorem CtlAcc.plain_discEnd (s : State) (l : Nat) (a : CtlAcc) (b : Bool) : (discEnd s l a b).plain ↔ a.plain := by
  unfold discEnd; dsimp only
  rw [CtlAcc.plain_each _ _ _ (fun a x => by split <;> simp)]; simp

@[simp] theorem CtlAcc.plain_discNext (s : State) (l : Nat) (a : CtlAcc) : (discNext s l a).plain ↔ a.plain := by
  unfold discNext; split
  · simp
  · split <;> simp

@[simp] theorem CtlAcc.plain_returnRequest (l : Nat) (a : CtlAcc) (f : Option Flight) (s : State) :
    (returnRequest l a f s).plain ↔ a.plain := by
  unfold returnRequest
  split
  · simp
  · split
    · split <;> simp
    · simp

@[simp] theorem CtlAcc.plain_enterProbing (s : State) (l : Nat) (a : CtlAcc) : (enterProbing s l a).plain ↔ a.plain := by
  simp [enterProbing]

@[simp] theorem CtlAcc.plain_passMiss (s : State) (l : Nat) (a : CtlAcc) : (passMiss s l a).plain ↔ a.plain := by
  unfold passMiss; dsimp only; split <;> simp

@[simp] theorem CtlAcc.plain_handOut (s : State) (l : Nat) (a : CtlAcc) (e : End) (n : Nat) (r : Request) (k : Nat) :
    (handOut s l a e n r k).plain ↔ a.plain := by
  unfold handOut; dsimp only; split <;> simp

@[simp] theorem CtlAcc.plain_handMark (s : State) (l : Nat) (a : CtlAcc) (e : End) (c n : Nat) (m : Mark) :
    (handMark s l a e c n m).plain ↔ a.plain := by simp [handMark]

theorem CtlAcc.plain_onRing (a : CtlAcc) (f : RingAcc → RingAcc)
    (h : ∀ r : RingAcc, (∀ e ∈ r.out, e.plain = true) → ∀ e ∈ (f r).out, e.plain = true) (ha : a.plain) : (a.onRing f).plain := h _ ha

theorem CtlAcc.plain_handEntry (s : State) (l : Nat) (a : CtlAcc) (e : End) (x : Entry) (ha : a.plain) :
    (handEntry s l a e x).plain := by
  unfold handEntry
  rw [CtlAcc.plain_handOut]
  apply CtlAcc.plain_onRing _ _ _ ha
  intro r hr y hy
  dsimp only at hy
  split at hy
  · exact hr y hy
  · simp only [Acc.say_out, Acc.put_out, List.mem_append, List.mem_singleton] at hy
    rcases hy with hy | rfl
    · exact hr y hy
    · rfl

theorem CtlAcc.plain_dispatch (s : State) (l : Nat) (e : End) (k : Nat) (a : CtlAcc) (ha : a.plain) : (dispatch s l e k a).plain := by
  induction k generalizing a with
  | zero => exact ha
  | succ k ih =>
    unfold dispatch
    split
    · exact ha
    · simp [ha]
    · simp [ha]
    · split
      · exact ih _ (CtlAcc.plain_onRing _ _ (fun r hr => completeEntry_plain _ _ _ _ hr) ha)
      · exact CtlAcc.plain_handEntry _ _ _ _ _ ha

@[simp] theorem CtlAcc.plain_deliver (l : Nat) (a : CtlAcc) (n : Nat) (r : Request) (st : Byte) (p : List Byte) :
    (deliver l a n r st p).plain ↔ a.plain := by
  unfold deliver; dsimp only
  repeat' split
  all_goals simp

@[simp] theorem CtlAcc.plain_pollEnds (s : State) (a : CtlAcc) (n : Nat) : (pollEnds s a n).plain ↔ a.plain := Iff.rfl

@[simp] theorem CtlAcc.plain_pollIf (s : State) (a : CtlAcc) (n : Nat) (c : Prop) [Decidable c] :
    CtlAcc.plain (if c then pollEnds s a n else a) ↔ a.plain := by split <;> simp

@[simp] theorem CtlAcc.plain_requestEnds (s : State) (l : Nat) (a : CtlAcc) (n : Nat) (b : Bool) :
    (requestEnds s l a n b).plain ↔ a.plain := by simp [requestEnds]

@[simp] theorem CtlAcc.plain_replyEnds (s : State) (l : Nat) (a : CtlAcc) (n : Nat) (r : Request) (st : Byte) (p : List Byte) :
    (replyEnds s l a n r st p).plain ↔ a.plain := by
  unfold replyEnds; dsimp only
  split
  · split <;> simp
  · split
    · simp
    · split
      · simp
      · split <;> simp

@[simp] theorem CtlAcc.plain_revive (a : CtlAcc) : (revive a).plain ↔ a.plain := by unfold revive; split <;> simp

@[simp] theorem CtlAcc.plain_joinEnds (s : State) (l : Nat) (a : CtlAcc) (n : Nat) (e : End) (st k : Byte) :
    (joinEnds s l a n e st k).plain ↔ a.plain := by
  unfold joinEnds; dsimp only
  repeat' split
  all_goals simp

@[simp] theorem CtlAcc.plain_validReply (s : State) (l : Nat) (a : CtlAcc) (e : End) (w : Work) (p : List Byte) :
    (validReply s l a e w p).plain ↔ a.plain := by
  unfold validReply; dsimp only
  repeat' split
  all_goals simp

@[simp] theorem CtlAcc.plain_takeReply (s : State) (l : Nat) (a : CtlAcc) (e : End) (x : Received) :
    (takeReply s l a e x).plain ↔ a.plain := by
  unfold takeReply; dsimp only
  repeat' split
  all_goals simp

@[simp] theorem CtlAcc.plain_takePass (a : CtlAcc) : (takePass a).plain ↔ a.plain := by
  unfold takePass; dsimp only
  repeat' split
  all_goals simp

@[simp] theorem CtlAcc.plain_countTimeout (a : CtlAcc) : (countTimeout a).plain ↔ a.plain := Iff.rfl

@[simp] theorem CtlAcc.plain_freeEnds (a : CtlAcc) (e : End) : (freeEnds a e).plain ↔ a.plain := Iff.rfl

@[simp] theorem CtlAcc.plain_secondLeg (a : CtlAcc) (f : Flight) : (secondLeg a f).plain ↔ a.plain := Iff.rfl

@[simp] theorem CtlAcc.plain_requestTimeout (s : State) (l : Nat) (a : CtlAcc) (e : End) (n : Nat) (f : Flight) :
    (requestTimeout s l a e n f).plain ↔ a.plain := by
  unfold requestTimeout; dsimp only
  repeat' split
  all_goals simp

@[simp] theorem CtlAcc.plain_timeoutAt (s : State) (l : Nat) (e : End) (n : Nat) (f : Flight) (a : CtlAcc) :
    (timeoutAt s l e n f a).plain ↔ a.plain := by
  unfold timeoutAt; dsimp only
  repeat' split
  all_goals simp

/-- The loop after its controller's event: what the event made of it. -/
theorem State.withCtl_loop (s : State) (l : Nat) (f : CtlAcc → CtlAcc)
    (h : CtlAcc.plain (f (Acc.start { L := s.loop l, ring := s.ring, free := s.free }))) :
    (s.withCtl l f).loop l = (f (Acc.start { L := s.loop l, ring := s.ring, free := s.free })).u.L ∧
      (∀ k, k ≠ l → (s.withCtl l f).loop k = s.loop k) ∧ (s.withCtl l f).guard = s.guard := by
  unfold State.withCtl
  dsimp only
  have hp := State.emit_plain { s with
    loops := Tab.set Loop.init s.loops l (f (Acc.start { L := s.loop l, ring := s.ring, free := s.free })).u.L
    ring := (CtlAcc.onRing (f (Acc.start { L := s.loop l, ring := s.ring, free := s.free }))
      (settleQueue (f (Acc.start { L := s.loop l, ring := s.ring, free := s.free })).u.L l)).u.ring
    free := (f (Acc.start { L := s.loop l, ring := s.ring, free := s.free })).u.free }
    (CtlAcc.onRing (f (Acc.start { L := s.loop l, ring := s.ring, free := s.free }))
      (settleQueue (f (Acc.start { L := s.loop l, ring := s.ring, free := s.free })).u.L l)).out
    (CtlAcc.plain_onRing _ _ (fun r hr => settle_plain _ _ _ hr) h)
  refine ⟨?_, ?_, hp.2⟩
  · unfold State.loop
    exact (congrArg (fun t => Tab.get Loop.init t l) hp.1).trans (Tab.get_set_same _ _ _ _)
  · intro k hk
    unfold State.loop
    exact (congrArg (fun t => Tab.get Loop.init t k) hp.1).trans (Tab.get_set_other _ _ _ hk)

end Sys2Proof.Machine
end

