-- ==== Sys2Proof/Laws/Guidance.lean ====
section
/-! SUPPORT. Laws of the Guidance Unit's event: what its end leaves as it was, and what the removal of a hold and the
evaluation of a zone do. -/

namespace Sys2Proof.Machine

/-! ### Effects are only added -/

/-- A unit at work has added effects behind those it had. -/
def Acc.grows {U : Type} (a b : Acc U) : Prop := ∃ es, b.out = a.out ++ es

section Grows

variable {U α : Type}

theorem Acc.grows_refl (a : Acc U) : a.grows a := ⟨[], by simp⟩

theorem Acc.grows_trans {a b c : Acc U} (h : a.grows b) (k : b.grows c) : a.grows c := by
  obtain ⟨es, h⟩ := h
  obtain ⟨fs, k⟩ := k
  exact ⟨es ++ fs, by rw [k, h, List.append_assoc]⟩

theorem Acc.grows_say (a : Acc U) (e : Eff) : a.grows (a.say e) := ⟨[e], rfl⟩

theorem Acc.grows_sayIf (a : Acc U) (c : Bool) (e : Eff) : a.grows (a.sayIf c e) := by
  unfold Acc.sayIf; split
  · exact a.grows_say e
  · exact a.grows_refl

theorem Acc.grows_put (a : Acc U) (u : U) : a.grows (a.put u) := ⟨[], by simp⟩

theorem Acc.grows_each (a : Acc U) (xs : List α) (f : Acc U → α → Acc U) (h : ∀ a x, Acc.grows a (f a x)) : a.grows (a.each xs f) := by
  induction xs generalizing a with
  | nil => exact a.grows_refl
  | cons x xs ih => exact Acc.grows_trans (h a x) (ih _)

theorem Acc.mem_of_grows {a b : Acc U} (h : a.grows b) {e : Eff} (he : e ∈ a.out) : e ∈ b.out := by
  obtain ⟨es, h⟩ := h
  rw [h]; simp [he]

end Grows

/-! ### The end of an event (R45) -/

/-- Zones, holds and nodes stand, and so do gates but for FULL and signs but for their status. -/
def Guid.settledKept (u v : Guid) : Prop :=
  v.zones = u.zones ∧ v.holds = u.holds ∧ v.nextId = u.nextId ∧ v.nodes = u.nodes ∧
    (∀ g, { v.gate g with full := false } = { u.gate g with full := false }) ∧
    ∀ i, { v.sign i with status := .ok } = { u.sign i with status := .ok }

theorem Guid.settledKept_refl (u : Guid) : u.settledKept u := ⟨rfl, rfl, rfl, rfl, fun _ => rfl, fun _ => rfl⟩

theorem Guid.settledKept_trans {u v w : Guid} (h : u.settledKept v) (k : v.settledKept w) : u.settledKept w :=
  ⟨k.1.trans h.1, k.2.1.trans h.2.1, k.2.2.1.trans h.2.2.1, k.2.2.2.1.trans h.2.2.2.1,
    fun g => (k.2.2.2.2.1 g).trans (h.2.2.2.2.1 g), fun i => (k.2.2.2.2.2 i).trans (h.2.2.2.2.2 i)⟩

theorem evalGate_kept (a : GuidAcc) (g : Nat) : a.u.settledKept (evalGate a g).u ∧ Acc.grows a (evalGate a g) := by
  unfold evalGate
  dsimp only
  split
  · exact ⟨Guid.settledKept_refl _, Acc.grows_refl _⟩
  · refine ⟨⟨rfl, rfl, rfl, rfl, fun k => ?_, fun _ => rfl⟩, ?_⟩
    · simp only [Acc.say_u, Acc.put_u, Guid.gate_setGate]
      split
      · rename_i h; rw [h]
      · rfl
    · exact Acc.grows_trans (Acc.grows_trans (Acc.grows_put _ _) (Acc.grows_say _ _)) (Acc.grows_say _ _)

theorem evalStatus_kept (a : GuidAcc) (i : Nat) : a.u.settledKept (evalStatus a i).u ∧ Acc.grows a (evalStatus a i) := by
  unfold evalStatus
  dsimp only
  split
  · exact ⟨Guid.settledKept_refl _, Acc.grows_refl _⟩
  · refine ⟨⟨rfl, rfl, rfl, rfl, fun _ => rfl, fun k => ?_⟩, Acc.grows_trans (Acc.grows_put _ _) (Acc.grows_say _ _)⟩
    simp only [Acc.say_u, Acc.put_u, Guid.sign_setSign]
    split
    · rename_i h; rw [h]
    · rfl

theorem showTest_kept (a : GuidAcc) (i : Nat) : (showTest a i).u = a.u ∧ Acc.grows a (showTest a i) := by
  unfold showTest
  exact ⟨Acc.sayIf_u _ _ _, Acc.grows_sayIf _ _ _⟩

/-- What holds between a unit and each piece of its work holds between it and the whole. -/
theorem Guid.each_kept {α : Type} (a : GuidAcc) (xs : List α) (f : GuidAcc → α → GuidAcc)
    (h : ∀ a x, Guid.settledKept a.u (f a x).u ∧ Acc.grows a (f a x)) :
    a.u.settledKept (Acc.each a xs f).u ∧ Acc.grows a (Acc.each a xs f) := by
  induction xs generalizing a with
  | nil => exact ⟨Guid.settledKept_refl _, Acc.grows_refl _⟩
  | cons x xs ih =>
    rw [Acc.each_cons]
    exact ⟨Guid.settledKept_trans (h a x).1 (ih _).1, Acc.grows_trans (h a x).2 (ih _).2⟩

/-- The end of an event evaluates FULL flags and sign statuses, and leaves the rest of the unit. -/
theorem guidEnd_kept (a : GuidAcc) : a.u.settledKept (guidEnd a).u ∧ Acc.grows a (guidEnd a) := by
  unfold guidEnd
  dsimp only
  have h1 := Guid.each_kept a (List.range 8) evalGate evalGate_kept
  have h2 := Guid.each_kept (Acc.each a (List.range 8) evalGate) (Tab.keys (Acc.each a (List.range 8) evalGate).u.signs) evalStatus
    evalStatus_kept
  have h3 := fun (x : GuidAcc) (ks : List Nat) => Guid.each_kept x ks showTest (fun a i => by
    rw [(showTest_kept a i).1]; exact ⟨Guid.settledKept_refl _, (showTest_kept a i).2⟩)
  exact ⟨Guid.settledKept_trans h1.1 (Guid.settledKept_trans h2.1 (h3 _ _).1),
    Acc.grows_trans h1.2 (Acc.grows_trans h2.2 (h3 _ _).2)⟩

/-- The Guidance Unit's event put into the part: the unit is the event's own but for FULL flags and sign statuses, and its
messages stand behind those of the event. -/
theorem State.withGuid_kept (s : State) (a : GuidAcc) :
    a.u.settledKept (s.withGuid a).guid ∧ (∀ e ∈ a.out, e ∈ (guidEnd a).out) ∧
      ∃ ms, (s.withGuid a).chan = s.chan ++ a.out.flatMap Eff.msg ++ ms := by
  have h := guidEnd_kept a
  refine ⟨?_, fun e he => Acc.mem_of_grows h.2 he, ?_⟩
  · unfold State.withGuid
    simpa using h.1
  · obtain ⟨es, he⟩ := h.2
    refine ⟨es.flatMap Eff.msg, ?_⟩
    unfold State.withGuid
    dsimp only
    rw [State.emit_chan, he, List.flatMap_append, List.append_assoc]

/-! ### Zones and holds (R45, R50) -/

/-- A zone whose Guidance State is the one its reasons and counts give is left as it is. -/
theorem evalZone_same {a : GuidAcc} {z : Nat} (h : (a.u.zone z).gstate = (a.u.zone z).state) : evalZone a z = a := by
  unfold evalZone
  rw [if_pos h.symm]

/-- A zone that does not become CLOSED takes its new Guidance State and joins the Reflect List. -/
theorem evalZone_open {a : GuidAcc} {z : Nat} (h : (a.u.zone z).state ≠ .closed) :
    evalZone a z = if (a.u.zone z).state = (a.u.zone z).gstate then a
      else Acc.say (Acc.put a (a.u.setZone z { a.u.zone z with gstate := (a.u.zone z).state })) (.reflect (.record .zone z)) := by
  unfold evalZone
  dsimp only
  rw [if_neg h]

/-- A hold leaves the list, its zone's H falls by 1, and its route counts are lowered in Route order (R50). -/
theorem removeHold_eq {a : GuidAcc} {k : Nat} {h : Hold} (hk : a.u.holds[k]? = some h) :
    (removeHold a k).u = { a.u with holds := a.u.holds.eraseIdx k }.setZone h.zone
        { a.u.zone h.zone with holds := (a.u.zone h.zone).holds - 1 } ∧
      (removeHold a k).out = a.out ++ .reflect (.record .zone h.zone) ::
        h.route.map (fun ch => guidSend .lighting (.routeLowered ch)) := by
  have each : ∀ (xs : List Nat) (b : GuidAcc), (Acc.each b xs (fun a ch => Acc.say a (guidSend .lighting (.routeLowered ch)))).u = b.u ∧
      (Acc.each b xs (fun a ch => Acc.say a (guidSend .lighting (.routeLowered ch)))).out =
        b.out ++ xs.map (fun ch => guidSend .lighting (.routeLowered ch)) := by
    intro xs
    induction xs with
    | nil => intro b; simp
    | cons x xs ih => intro b; rw [Acc.each_cons, (ih _).1, (ih _).2]; simp
  unfold removeHold
  rw [hk]
  dsimp only
  rw [(each _ _).1, (each _ _).2]
  exact ⟨rfl, by simp⟩

end Sys2Proof.Machine
end

