-- ==== Sys2Proof/Tests/Slice0.lean ====
section
/-! SUPPORT. The model's own tests: ill-formed commands, small steps, and a witness for the hypotheses of each statement. -/

-- The tests are checked one after the other: each on a thread of its own, they ask for more stack than the limit allows.
set_option Elab.async false

namespace Sys2Proof.Tests

open Sys2Proof.Machine

/-! ### Small states and operands -/

/-- A Window Map with every window present; ZONE has one granule more than its records fill. -/
def windows : List WinEntry :=
  [{ base := 0, len := 5, present := true }, { base := 5, len := 3, present := true }, { base := 8, len := 6, present := true },
   { base := 14, len := 128, present := true }, { base := 142, len := 4, present := true },
   { base := 146, len := 2, present := true }, { base := 148, len := 8, present := true },
   { base := 156, len := 13, present := true }]

/-- Section Parameters in their ranges. -/
def params : Params :=
  { replyTimeout := 20, gasPoll := 5, bayPoll := 500, fanPoll := 2, lightPoll := 10, signPoll := 20, startTimeout := 30,
    stopTimeout := 30, startInterval := 5, signInterval := 2, minLight := 10, purgePeriod := 60, coMax := 500,
    no2Max := 100, thresholds := [] }

/-- A configuration with every table at its native maximum and no terminal function. -/
def cfg : Cfg :=
  { windows := windows, counts := [16, 12, 48, 2048, 64, 8, 32, 64], guarded := 156, terms := [], params := params }

/-- A part in RUN under that configuration. -/
def running : State := { State.reset with mode := .run, cfg := cfg }

/-- A part in BUILDING at a place of BUILD. -/
def building (stage : Nat) : State := { running with mode := .building, build := { stage := stage, index := 0, word := 0 } }

/-- A single beat. -/
def beat (write : Bool) (addr : Addr) (lanes : BitVec 4) (data : Word) : Beat :=
  { write := write, addr := addr, lanes := lanes, data := data, len := .one, wrap := false, index := 0 }

/-- Device command arguments. -/
def args (a b : Byte) : CmdArgs := { arg1 := some a, arg2 := some b, arg3 := none }

/-- A node of a kind in a state. -/
def node (k : NodeKind) (st : NodeState) : Node := { Node.init with kind := k, state := st }

/-- A loop with one node at address 1. -/
def loopOne (st : LoopState) (nd : Node) : Loop := { Loop.init with state := st, nodes := [(1, nd)] }

/-- A part in RUN whose loop 0 is `L`. -/
def onLoop (L : Loop) : State := { running with loops := [(0, L)] }

/-- A part in RUN in which one message is on its way. -/
def told (src : Sender) (dst : UnitId) (b : Body) : State := { running with chan := [{ src := src, dst := dst, body := b }] }

/-- A POLL request. -/
def poll : Request := { kind := 1, frame := mkFrame 1 16 [], source := .mark .poll, cls := 6 }

/-- Its frame in flight, with its timer run out at time 0. -/
def flight (w : Work) : Flight := { frame := mkFrame 1 16 [], work := w, timer := some 0, reply := true, pass := false }

/-- The first 338 bytes of an image of 342: a ZONE window of 4 granules, a BAY node at address 1 of loop 0, the smallest
parameters; its byte `at_` is `v`. -/
def imageBody (at_ : Nat) (v : Byte) : List Byte :=
  (List.range 338).map (fun i =>
    if i = at_ then v else if i = 0 then 0x44 else if i = 1 then 0x47 else if i = 2 then 1 else if i = 3 then 9
    else if i = 4 then 0x56 else if i = 5 then 1 else if i = 10 then 4 else if i = 12 then 1 else if i = 48 then 1
    else if i = 304 then 2 else if i = 305 then 1 else if i = 306 then 200 else if i = 308 then 1 else if i = 309 then 5
    else if i = 310 then 10 else if i = 311 ∨ i = 312 then 10 else if i = 313 ∨ i = 314 then 1 else if i = 316 then 60
    else if i = 318 ∨ i = 320 then 100 else if 322 ≤ i ∧ i < 336 ∧ i % 2 = 0 then 50 else 0)

/-- The image with its check raised by `k`. -/
def image (at_ : Nat) (v : Byte) (k : Nat) : List Byte :=
  imageBody at_ v ++ bytesOfNat 4 ((crc32 (imageBody at_ v)).toNat + k)

/-! ### Ill-formed commands -/

theorem test_illformed_beat : Instr.wellFormed (.plainBeat { beat true 0 1 0 with index := 1 }) = false := by decide
theorem test_illformed_known_code : Instr.wellFormed (.unknownCommand 11 (args 0 0)) = false := by decide
theorem test_illformed_long_frame : Instr.wellFormed (.frameReceived 0 .a (List.replicate 22 0)) = false := by decide
theorem test_illformed_node_zero : Instr.wellFormed (.probeDue 0 0) = false := by decide
theorem test_illformed_node_above : Instr.wellFormed (.nodeNotice 0 33 .joining .ready) = false := by decide
theorem test_illformed_slot : Instr.wellFormed (.hostRequestCompletion 0 64) = false := by decide
theorem test_illformed_gas_value : Instr.wellFormed (.gasPollReply 0 1 65536 0 0) = false := by decide
theorem test_illformed_gas_node : Instr.wellFormed (.gasPollReply 0 33 0 0 0) = false := by decide
theorem test_illformed_speed : Instr.wellFormed (.fanPollReply 0 1 0 256) = false := by decide
theorem test_illformed_levels : Instr.wellFormed (.lightPollReply 0 1 [0, 0, 0]) = false := by decide
theorem test_illformed_set_levels : Instr.wellFormed (.lightSetCompletion 0 1 0 []) = false := by decide
theorem test_illformed_content : Instr.wellFormed (.showCompletion 0 1 0 []) = false := by decide
theorem test_illformed_free_zone : Instr.wellFormed (.freeLost 16 0 0) = false := by decide
theorem test_illformed_free_class : Instr.wellFormed (.freeLost 0 3 0) = false := by decide
theorem test_illformed_free_count : Instr.wellFormed (.freeGained 0 0 2049) = false := by decide
theorem test_illformed_zone : Instr.wellFormed (.occupiedAccepted 16) = false := by decide
theorem test_illformed_traffic_sender : Instr.wellFormed (.traffic .air 0) = false := by decide
theorem test_illformed_traffic_zone : Instr.wellFormed (.traffic .guidance 16) = false := by decide
theorem test_illformed_channel : Instr.wellFormed (.presence 64) = false := by decide
theorem test_illformed_gate : Instr.wellFormed (.entryEvent 8) = false := by decide
theorem test_illformed_stage_unit : Instr.wellFormed (.stageNotice .air 0 0) = false := by decide
theorem test_illformed_stage : Instr.wellFormed (.stageNotice .fan 0 5) = false := by decide
theorem test_illformed_override_unit : Instr.wellFormed (.overrideNotice .occupancy .normal) = false := by decide
theorem test_illformed_fan : Instr.wellFormed (.startTimerExpiry 48) = false := by decide
theorem test_illformed_place : Instr.wellFormed (.holdExpiry 64) = false := by decide
theorem test_illformed_sign : Instr.wellFormed (.refreshTimerExpiry 32) = false := by decide
theorem test_illformed_bay : Instr.wellFormed (.bayCommit 2048) = false := by decide
theorem test_illformed_channel_commit : Instr.wellFormed (.channelCommit 64) = false := by decide
theorem test_illformed_group : Instr.wellFormed (.groupCommit 12) = false := by decide
theorem test_illformed_zone_commit : Instr.wellFormed (.zoneCommitAir 16) = false := by decide
theorem test_illformed_gate_commit : Instr.wellFormed (.gateCommit 8) = false := by decide
theorem test_illformed_store (st : List Byte) (h : st.length = 16777217) :
    Instr.wellFormed (.configurationRead st) = false := by
  simp [Instr.wellFormed, h]

/-! ### Witnesses: the hypotheses of the statements are met together -/

theorem test_witness_empty_queue : State.reset.pending = [] := rfl

/-- ResetsAndResetValues, and every statement whose only hypothesis is that the host can present a beat. -/
theorem test_witness_open : State.reset.open_ ∧ running.open_ ∧ running.mode = .run := ⟨⟨rfl, rfl⟩, ⟨rfl, rfl⟩, rfl⟩

theorem test_witness_image_empty : State.reset.mode = .loading ∧ imageFault [] = some 1 := by decide +kernel

/-- What the checks of an image find at its start, and around its trailer. -/
theorem imgBytes_append (xs ys : List Byte) : imgBytes (xs ++ ys) 0 xs.length = xs ∧ imgBytes (xs ++ ys) xs.length ys.length = ys := by
  constructor <;> refine List.ext_getElem (by simp [imgBytes]) (fun i h _ => ?_) <;>
    simp_all [imgBytes, storeByte, List.getD_eq_getElem?_getD, List.getElem?_append]

theorem imageBody_length (i : Nat) (v : Byte) : (imageBody i v).length = 338 := by simp [imageBody]

theorem bytesOfNat_length (k n : Nat) : (bytesOfNat k n).length = k := by
  induction k generalizing n with
  | zero => rfl
  | succ k ih => simp [bytesOfNat, ih]

/-- The header of an image whose Marker, Format and Length are right. -/
def header : List Byte := [0x44, 0x47, 1, 9, 0x56, 1]

/-- The trailer of an image is read where it stands. -/
theorem checkOk_image {i : Nat} {v : Byte} (h : (imageBody i v).take 6 = header) (k : Nat) : checkOk (image i v k) =
    decide (bytesOfNat 4 (crc32 (imageBody i v)).toNat = bytesOfNat 4 ((crc32 (imageBody i v)).toNat + k)) := by
  have ha := imgBytes_append (imageBody i v) (bytesOfNat 4 ((crc32 (imageBody i v)).toNat + k))
  rw [imageBody_length, bytesOfNat_length] at ha
  have hn : img16 (image i v k) 4 = 342 := by
    unfold image
    rw [← List.take_append_drop 6 (imageBody i v), h]; rfl
  show decide (bytesOfNat 4 (crc32 (imgBytes (image i v k) 0 (img16 (image i v k) 4 - 4))).toNat =
    imgBytes (image i v k) (img16 (image i v k) 4 - 4) 4) = _
  rw [hn, show 342 - 4 = 338 from rfl]
  unfold image
  rw [ha.1, ha.2]

theorem frameFault_image {i : Nat} {v : Byte} (h : (imageBody i v).take 6 = header) (k : Nat) :
    frameFault (image i v k) = if checkOk (image i v k) then none else some 3 := by
  obtain ⟨rest, hr⟩ : ∃ rest, image i v k = header ++ rest :=
    ⟨_, by unfold image; rw [← h, ← List.append_assoc, List.take_append_drop]⟩
  unfold frameFault
  rw [hr, if_neg (by
    intro hb
    have h0 : (imgBytes (header ++ rest) 0 6).head? = some 0x44 := rfl
    rw [hb] at h0
    exact absurd h0 (by decide))]
  rw [if_neg (by
    have hm : (markerOk (header ++ rest) && decide (342 ≤ img16 (header ++ rest) 4 ∧ img16 (header ++ rest) 4 ≤ 4096)) = true := rfl
    rw [hm]; exact Bool.noConfusion)]

/-- An image with its own check passes the checks of its frame. -/
theorem frameFault_sound {i : Nat} {v : Byte} (h : (imageBody i v).take 6 = header) : frameFault (image i v 0) = none := by
  rw [frameFault_image h, checkOk_image h]
  simp

theorem test_witness_image_format : imageFault (image 2 2 0) = some 2 := by
  have h : frameFault (image 2 2 0) = some 2 := rfl
  rw [imageFault, h]

theorem test_witness_image_check : imageFault (image 12 1 1) = some 3 ∧ 3 ≤ (3#8 : Byte).toNat := by
  refine ⟨?_, by decide⟩
  have h : checkOk (image 12 1 1) = false := by
    rw [checkOk_image rfl, decide_eq_false_iff_not]
    intro h
    have h := congrArg (fun x : Byte => x.toNat) (List.cons.inj h).1
    simp only [BitVec.toNat_ofNat] at h
    omega
  rw [imageFault, frameFault_image rfl, h]; rfl

set_option maxRecDepth 4000 in
theorem test_witness_image_window : imageFault (image 12 2 0) = some 4 := by
  rw [imageFault, frameFault_sound rfl]; rfl

set_option maxRecDepth 4000 in
theorem test_witness_image_node_kind : imageFault (image 48 6 0) = some 5 := by
  rw [imageFault, frameFault_sound rfl]; rfl

set_option maxRecDepth 4000 in
theorem test_witness_image_terminal : imageFault (image 176 10 0) = some 6 := by
  rw [imageFault, frameFault_sound rfl]; rfl

set_option maxRecDepth 4000 in
theorem test_witness_image_parameter : imageFault (image 304 1 0) = some 7 := by
  rw [imageFault, frameFault_sound rfl]; rfl

set_option maxRecDepth 4000 in
theorem test_witness_image_accepted : imageFault (image 12 1 0) = none ∧ kindOfCode (imgKind (image 12 1 0) 0 1) ≠ .none ∧
    (imgCfg (image 12 1 0)).guarded = 4 := by
  refine ⟨?_, by decide, by decide⟩
  rw [imageFault, frameFault_sound rfl]; rfl

theorem test_witness_build : ((building 0).mode = .building ∧ (building 0).build.stage < 9 ∧
    (building 0).port.wait = none ∧ (building 0).port.commit = none ∧ (building 0).port.grant = false) ∧
    (building 8).build.stage < 9 := by decide

/-- BuildWritesDefaults: more words of a record, another record after it, and the last record of a table. -/
theorem test_witness_build_place :
    (building 0).build.index < (building 0).buildCount 0 ∧ 0 + burstSize (buildSize 0 / 4 - 0) < buildSize 0 / 4 ∧
    buildSize 0 / 4 ≤ 8 + burstSize (buildSize 0 / 4 - 8) ∧ 14 + 1 < (building 0).buildCount 0 ∧
    (building 0).buildCount 0 ≤ 15 + 1 ∧ 0 < (building 8).buildCount 8 ∧ tables[6]? = some .sign := by decide

theorem test_witness_default_byte : (32, 0#8) ∈ State.reset.partBytes (.record .zone 0) := by decide +kernel

/-- A part at the end of BUILD with a BAY node on loop 0. -/
def built : State := { building 9 with loops := [(0, loopOne .idle (node .bay .joining))] }

theorem test_witness_entry_to_run : built.mode = .building ∧ built.build.stage = 9 ∧ (built.loop 0).state = .idle ∧
    (built.loop 0).configured = true ∧ (built.loop 0).bothFree = true ∧ 1 ∈ addresses ∧ built.kindOf 0 1 = .bay ∧
    (built.term.term 0).func = none := by decide

theorem test_witness_tick : ({ running with clock := 999 } : State).mode = .run ∧ (999 + 1) % 1000 = 0 ∧
    ¬((State.reset.clock + 1) % 1000 = 0 ∧ State.reset.mode = .run) := by decide

theorem test_witness_plain_beat : running.beatClass (beat false 0xF00000 15 0) = .plain ∧
    running.beatClass (beat true 0xF00000 15 0) = .plain ∧ running.grantable :=
  ⟨by decide, by decide, ⟨rfl, rfl⟩, Or.inl (by decide)⟩

/-- PlainBeatPasses: the last record and the first word past it, of ZONE and of RING, and no other window at them. -/
theorem test_witness_window_ends :
    running.beatClass (beat true 0x03FC 15 0) = .table .zone 15 60 ∧ running.beatClass (beat true 0x0400 15 0) = .tableEnd .zone ∧
    running.guarded .zone 0x0400 = false ∧ running.beatClass (beat true 0xA83C 15 0) = .slot 63 44 ∧
    running.beatClass (beat true 0xA840 15 0) = .ringEnd ∧ running.inLive (beat true 0xA840 15 0) = false ∧
    (∀ p ∈ [(0, 0x0400), (7, 0xA840)], ∀ j < 8, ((running.window j).present = true ∧ 256 * (running.window j).base ≤ p.2 ∧
      p.2 < 256 * ((running.window j).base + (running.window j).len)) ↔ j = p.1) := by decide +kernel

/-- A part whose grant counter stands at 16 while the record BAY 0 waits for the Reflect Engine. -/
def counted : State :=
  { running with reflect := { list := [.record .bay 0], current := none }, port := { Port.init with counter := 16 } }

theorem test_witness_hold_line : counted.beatClass (beat true 0xF00000 15 0) = .plain ∧ counted.port.commit = none ∧
    counted.port.wait = none ∧ (beat true 0xF00000 15 0).index = 0 ∧ counted.partWork = true ∧ counted.port.counter = 16 ∧
    (beat true 0xF00000 15 0).lanes ≠ 0 := by decide

theorem test_witness_guard : running.beatClass (beat true 0 15 0) = .table .zone 0 0 ∧
    running.guarded .zone (Beat.word (beat true 0 15 0)) = false ∧
    ({ running with guard := { Guard.init with hardZone := true } } : State).guarded .zone 0 = true ∧
    ({ running with guard := { Guard.init with locks := 1 } } : State).guarded .zone 0 = true ∧
    running.beatClass (beat true 1024 15 0) = .tableEnd .zone ∧
    (building 0).beatClass (beat true 0x9C00 15 0) = .header 0 ∧
    (building 0).beatClass (beat true 0x9C40 15 0) = .slot 0 0 := by decide

/-- A TABLE write beat that StagingAndCommitting and ClampedFields speak of: its record, unguarded, no byte of Presence Hold. -/
def filteredAt (b : Beat) (k : Table) (i off : Nat) : Prop :=
  running.beatClass b = .table k i off ∧ b.write = true ∧ running.guarded k (Beat.word b) = false ∧ ¬coversHold k b off

/-- StagingAndCommitting: a beat with the Commit byte among its lanes at each table, and one without. -/
theorem test_witness_staging : (∀ p ∈ [(0x001C#24, 3#4, Table.zone, 28), (0x0514, 3, .group, 20), (0x0804, 1, .fan, 4),
      (0x0E04, 15, .bay, 4), (0x8E08, 2, .channel, 8), (0x9224, 1, .gate, 36), (0x9410, 15, .sign, 16), (0x9400, 15, .sign, 0)],
      filteredAt (beat true p.1 p.2.1 0) p.2.2.1 0 p.2.2.2) ∧
    28 + 1 = commitOffset .zone ∧ 8 + 1 = commitOffset .channel ∧ 36 + 0 = commitOffset .gate ∧ 16 + 3 = commitOffset .sign ∧
    (running.capture.mark .sign 0).staged = false ∧
    ((running.capture.setMark .sign 0 { staged := true, clamped := false, verdict := 2 }).mark .sign 0).staged = true := by
  unfold filteredAt coversHold; decide

/-- StagingAndCommitting: a lane kept; a part-owned lane; half of a 16-bit field, of ZONE and of GATE. -/
theorem test_witness_lanes : keepsLane params .zone (beat true 0 15 0) 0 0 ∧ ¬keepsLane params .zone (beat true 0x001C 15 0) 28 2 ∧
    halfOfField params .zone (beat true 0 13 0) 0 0 ∧ halfOfField params .gate (beat true 0x9208 2 0) 8 1 ∧
    ¬keepsLane params .gate (beat true 0x9208 2 0) 8 1 := by
  unfold keepsLane halfOfField; decide

/-- ClampedFields: a ZONE beat with two whole fields, one of them above its limit, and a CHANNEL beat with three. -/
theorem test_witness_clamped : filteredAt (beat true 0 15 0x000A0FFF) .zone 0 0 ∧
    filteredAt (beat true 0x8E04 7 0xC8C8C8) .channel 0 4 ∧
    ((clampFields params .zone).head?.map (fun f => (f.wholeIn (beat true 0 15 0x000A0FFF) 0, f.valueIn (beat true 0 15 0x000A0FFF) 0)))
      = some (true, 0x0FFF) ∧
    (replacedFields params .zone (beat true 0 15 0x000A0FFF) 0).length = 1 ∧
    (replacedFields params .channel (beat true 0x8E04 7 0xC8C8C8) 4).length = 3 := by
  unfold filteredAt coversHold; decide

/-- PresenceHoldWhole: the low byte with the next beat to come and in the last beat; the high byte after its low byte, and
in a beat of its own. -/
theorem test_witness_presence_hold :
    running.beatClass (beat true 0x8E04 8 0) = .table .channel 0 4 ∧ Beat.lane (beat true 0x8E04 8 0) 3 = true ∧
    Beat.nextWord (beat true 0x8E04 8 0) = none ∧ Beat.nextWord { beat true 0x8E04 8 0 with len := .two } = some (0x8E04 + 4) ∧
    running.guarded .channel 0x8E04 = false ∧ running.beatClass (beat true 0x8E08 1 0) = .table .channel 0 8 ∧
    Beat.lane (beat true 0x8E08 1 0) 0 = true ∧
    ({ running with capture := { Capture.init with held := some (0, 5) } } : State).capture.held = some (0, 5) ∧
    ({ beat true 0x8E08 1 0 with len := .two, index := 1 }).index ≠ 0 ∧ (beat true 0x8E08 1 0).index = 0 := by decide

/-- PresenceHoldWhole: beats that keep other lanes and that keep none, and that carry the Commit byte and do not. -/
theorem test_witness_presence_lanes :
    (clampFields params .channel).filter (fun f => f.wholeIn (beat true 0x8E04 15 0) 4) ≠ [] ∧
    (clampFields params .channel).filter (fun f => f.wholeIn (beat true 0x8E04 8 0) 4) = [] ∧
    Beat.lane (beat true 0x8E04 15 0) 3 = true ∧ Beat.lane (beat true 0x8E08 3 0) 0 = true ∧
    Beat.lane (beat true 0x8E08 3 0) 1 = true ∧ Beat.lane (beat true 0x8E08 1 0) 1 = false := by decide

/-- A part that holds the committing beat of BAY record 0, whose record is `bytes`; its node is a BAY node. -/
def committing (bytes : List (Nat × Byte)) : State :=
  { onLoop (loopOne .closed (node .bay .ready)) with
    mem := bytes, port := { Port.init with commit := some (.bay, 0) } }

/-- The record that it reads back. -/
def readBack (s : State) : AnyRec := recordOf .bay (Memory.readAll s.mem (s.recAddr (.record .bay 0)) 8)

/-- The maps that its checks are made against. -/
def mapsFor (s : State) : Maps := s.maps.claim (s.capture.applied.at_ .bay 0) none

theorem test_witness_disabled_commit : (committing []).port.commit = some (.bay, 0) ∧ (readBack (committing [])).enabled = false := by
  decide

theorem test_witness_enabled_commit : (readBack (committing [(0xE01, 1), (0xE05, 255), (0xE07, 1)])).enabled = true ∧
    checkRecord (committing [(0xE01, 1), (0xE05, 255), (0xE07, 1)]) (mapsFor (committing [(0xE01, 1), (0xE05, 255), (0xE07, 1)])) 0
      (readBack (committing [(0xE01, 1), (0xE05, 255), (0xE07, 1)])) = none ∧
    (readBack (committing [(0xE07, 1)])).enabled = true ∧
    checkRecord (committing [(0xE07, 1)]) (mapsFor (committing [(0xE07, 1)])) 0 (readBack (committing [(0xE07, 1)])) = some 4 := by decide

theorem test_witness_ring_lanes : running.beatClass (beat true 0x9C00 15 7) = .header 0 ∧
    running.beatClass (beat true 0x9C44 15 7) = .slot 0 4 ∧ running.capture.held = none ∧
    ringPartOwned true (0 + 1) = false ∧ ringPartOwned true (0 + 2) = true ∧ ringPartOwned false (4 + 1) = false ∧
    ringPartOwned false (4 + 2) = true ∧ ringPartOwned false (4 + 3) = true := by decide

theorem test_witness_host_read : running.mode = .run ∧ (running.beatClass (beat false 0x0E00 15 0)).record = some (.record .bay 0) ∧
    running.behind (.record .bay 0) = false ∧
    RecName.record .bay 0 ∈ ({ running with reflect := { list := [.record .bay 0], current := none } } : State).reflect.list ∧
    ({ running with port := { Port.init with counter := 15 } } : State).port.counter < 16 := by decide

/-- HostReadPromotes: the record BAY 0 in the list, and being written, with and without having joined again. -/
def writing (again : Bool) : State :=
  { running with reflect := { list := if again then [.record .bay 0] else [],
                              current := some (.record .bay 0, [[(8, 1#8), (9, 2#8)]]) } }

theorem test_witness_read_of_current :
    (writing false).reflect.current = some (.record .bay 0, [[(8, 1#8), (9, 2#8)]]) ∧
    (([[(8, 1#8), (9, 2#8)]].flatten.map (fun p => p.1) : List Nat)).Nodup ∧
    RecName.record .bay 0 ∉ (writing false).reflect.list ∧ RecName.record .bay 0 ∈ (writing true).reflect.list ∧
    (writing false).port.commit = none ∧ (writing false).port.wait = none ∧ (writing false).port.counter < 16 := by decide

/-- ReflectWritesHead: the head of the list, the next burst of a record being written, and a beat on the hold line. -/
theorem test_witness_reflect :
    ({ running with reflect := { list := [.record .bay 0], current := none } } : State).reflectDue = true ∧
      (∃ bs, burstsOf (running.partBytes (.record .bay 0)) = [bs]) ∧ (writing false).reflectDue = true ∧
      ({ counted with port := { counted.port with wait := some ⟨beat true 0xF00000 1 7, .write [(0xF00000, 7)]⟩ } } : State).reflectDue
        = true := ⟨by decide, ⟨_, rfl⟩, by decide, by decide⟩

/-- Accesses of every kind, each of which can stand on the hold line. -/
def accesses : List Access :=
  [.write [(0xF00000, 7)], .ring [(0x9C00, 7)] true, .read none, .read (some (.record .bay 0)), .table [(0x0E04, 9)] .bay 0 false,
    .table [(0x0E07, 1)] .bay 0 true]

/-- The part with its grant counter at 16 and a beat of this access on the hold line. -/
def standing (s : State) (a : Access) : State :=
  { s with port := { s.port with counter := 16, wait := some ⟨beat true 0xF00000 1 7, a⟩ } }

/-- ReflectWritesHead and BuildWritesDefaults: a beat of each access waits for a part grant. -/
theorem test_witness_standing : ∀ a ∈ accesses, (standing counted a).reflectDue = true ∧ (standing (building 0) a).partFree = true ∧
    (standing (building 0) a).mode = .building ∧ (standing (building 0) a).build.stage < 9 := by decide +kernel

/-- ReflectWritesHead: a held commit does not keep the engine from writing (R161). -/
theorem test_witness_reflect_held :
    ({ counted with port := { Port.init with commit := some (.bay, 0) } } : State).reflectDue = true := by decide

/-- A part in the second beat of a live burst that has begun at FFFFFCh. -/
def following : State := { running with live := { Live.init with snapshot := some (127, []) } }

/-- The second beat of an incrementing burst of two, at the address after FFFFFFh. -/
def pastEnd (write : Bool) : Beat := { beat write 0 15 0 with index := 1, len := .two }

theorem test_witness_live_read : running.inLive (beat false 0xFFF000 15 0) = true ∧ running.capture.held = none ∧
    running.port.commit = none ∧ running.port.wait = none ∧ (beat false 0xFFF000 15 0).index = 0 ∧
    following.inLive (pastEnd false) = true ∧ (pastEnd false).index ≠ 0 ∧ following.live.snapshot = some (127, []) ∧
    Beat.word (pastEnd false) = 0 := by decide

theorem test_witness_live_write : running.inLive (beat true 0xFFF084 12 0) = true ∧
    Beat.word (beat true 0xFFF084 12 0) - 0xFFF000 = 0x84 ∧ Beat.lane (beat true 0xFFF084 12 0) 2 = true ∧
    Beat.word (beat true 0xFFF020 15 0) - 0xFFF000 = 0x20 ∧ Beat.word (beat true 0xFFF000 15 0) - 0xFFF000 = 0 ∧
    following.inLive (pastEnd true) = true ∧ 32 * 127 + Beat.word (pastEnd true) % 32 = 0xFE0 := by decide

/-- LiveBeats at 040h: a first beat with lane 0 and a command, known and unknown, and one without; and a later beat of its burst. -/
theorem test_witness_live_command :
    running.inLive (beat true 0xFFF040 3 0x0501) = true ∧ running.inLive (beat true 0xFFF040 1 0) = true ∧
    running.inLive (beat true 0xFFF040 2 0x0500) = true ∧ Beat.word (beat true 0xFFF040 3 0x0501) = 0xFFF000 + 0x40 ∧
    Beat.lane (beat true 0xFFF040 3 0x0501) 0 = true ∧ byteOf 0x0501 0 = 1 ∧ byteOf 0 0 = 0 ∧ knownCode 0 = false ∧
    Beat.lane (beat true 0xFFF040 2 0x0500) 0 = false := ⟨rfl, rfl, rfl, rfl, rfl, rfl, rfl, rfl, rfl⟩

theorem test_witness_live_later :
    let s := { running with live := { Live.init with snapshot := some (2, []) } }
    let b := { beat true 0xFFF040 1 1 with index := 1, len := .two }
    s.inLive b = true ∧ s.live.snapshot = some (2, []) ∧ b.index ≠ 0 ∧ 32 * 2 + Beat.word b % 32 = 0x40 := ⟨rfl, rfl, by decide, rfl⟩

/-- LiveWindowShows: a terminal with a function and one without, and a hold in the list. -/
theorem test_witness_live_shows : (running.term.term 0).func = none ∧
    ({ TermU.init with func := some (.gateIn 1, 0) } : TermU).func = some (.gateIn 1, 0) ∧ 1 ∈ addresses := by decide

/-- LockCommands: the guarded count is 156, ids 0 to 6 are tables, and a window can be absent. -/
theorem test_witness_locks : 155 < running.cfg.guarded ∧ running.cfg.guarded ≤ argVal (some 156) ∧
    tables[6]? = some .sign ∧ (running.window 6).present = true ∧ 6 < argVal (some 7) ∧ (State.reset.window 0).present = false := by
  decide

theorem test_witness_outside_run : State.reset.mode ≠ .run ∧ knownCode 0 = false ∧ knownCode 12 = false := by decide

theorem test_witness_loop_reset : argVal (some 3) ≤ 3 ∧ 3 < argVal (some 4) ∧ running.mode = .run := by decide

/-- LoopAndNodeCommands: a frame in flight on each end, of a request and of a discovery ECHO, and a loop with both ends free. -/
theorem test_witness_flights :
    let L := { loopOne .broken (node .bay .waiting) with endA := some (flight (.request 1)), endB := some (flight (.discovery 1)) }
    ((onLoop L).loop 0).flight .a = some (flight (.request 1)) ∧ ((onLoop L).loop 0).flight .b = some (flight (.discovery 1)) ∧
      (L.node 1).state = .waiting ∧ (loopOne .closed (node .bay .ready)).endA = none ∧
      (loopOne .closed (node .bay .ready)).endB = none ∧ ((loopOne .closed (node .bay .ready)).node 1).kind ≠ .none :=
  ⟨rfl, rfl, rfl, rfl, rfl, by decide⟩

theorem test_witness_isolate : nodeOk 1 = true ∧ nodeOk 32 = true ∧ ((onLoop Loop.init).loop 0 |>.node 1).state = .absent ∧
    ((onLoop (loopOne .closed (node .bay .isolated))).loop 0 |>.node 1).state = .isolated ∧
    ((onLoop (loopOne .broken (node .bay .isolated))).loop 0).state = .broken ∧
    ((onLoop (loopOne .idle (node .bay .isolated))).loop 0).state = .idle ∧
    ((onLoop (loopOne .closed (node .bay .ready))).loop 0 |>.node 1).state = .ready := by decide

/-- A part with one fan. -/
def withFan0 (x : FanU) : State := { running with fan := { Fan.init with fans := [(0, x)] } }

theorem test_witness_clear : (0 < (withFan0 { FanU.init with state := .fault }).count .fan) ∧
    ((withFan0 { FanU.init with state := .fault }).fan.fan 0).state = .fault ∧
    (withFan0 { FanU.init with state := .fault }).fan.queueOk = true ∧
    ¬(48 < running.count .fan) ∧ argVal (some 255) = 255 ∧ 15 < running.count .zone ∧ running.count .zone ≤ 16 := by decide

/-- An empty queue is settled. -/
theorem settled_of_empty (s : State) (h : s.ring.queues = []) : s.settled := by
  intro l e he
  simp [Ring.queue, h, Tab.get, earliest] at he

/-- A part with this Producer and a slot of these first bytes, whose fetch attempt stands at `f`. -/
def fetching (f : Fetching) (producer : Byte) (slot : List (Nat × Byte)) : State :=
  { onLoop (loopOne .closed (node .bay .ready)) with
    mem := (0x9C00, producer) :: slot, ring := { Ring.init with fetching := f, causeProducer := decide (f = .idle) } }

/-- The bytes of slot 0. -/
def slotBytes0 (s : State) : List Byte := Memory.readAll s.mem (s.recAddr (.slot 0)) 24

/-- The first bytes of a POLL slot for node 1 of loop 0. -/
def pollSlot : List (Nat × Byte) := [(0x9C40, 1), (0x9C42, 1)]

theorem test_witness_fetch : (fetching .idle 1 []).mode = .run ∧ 0 < (fetching .idle 1 []).ringCount ∧
    (fetching .idle 1 []).partFree = true ∧ (fetching .idle 1 []).port.wait = none ∧
    (fetching .idle 1 []).ring.causeProducer = true ∧
    (fetching .idle 65 []).ringCount < (65#16 - (fetching .idle 65 []).ring.fetch).toNat ∧
    (1#16 - (fetching .idle 1 []).ring.fetch).toNat ≤ (fetching .idle 1 []).ringCount ∧
    slotCheck (fetching (.rest 1 []) 1 []) (slotBytes0 (fetching (.rest 1 []) 1 [])) = some (7, 1) ∧
    slotCheck (fetching (.rest 1 []) 1 pollSlot) (slotBytes0 (fetching (.rest 1 []) 1 pollSlot)) = none ∧
    stateCheck ((fetching .idle 1 pollSlot).loop 0) (entryOf 0 0 (slotBytes0 (fetching .idle 1 pollSlot))) = none ∧
    ∀ f, (fetching f 1 []).settled := ⟨rfl, by decide, rfl, rfl, rfl, by decide, by decide, by decide +kernel, by decide +kernel,
      by decide +kernel, fun _ => settled_of_empty _ rfl⟩

/-- FetchOneSlot: a host beat of each access that stands on the hold line between two bursts, one of them a read of a record that
is being written and has joined again; a held commit, which goes first; and a departure in OVERRUN. -/
theorem test_witness_fetch_between :
    let s := { fetching (.slot 1) 1 pollSlot with reflect := (writing true).reflect }
    s.ring.fetching ≠ .idle ∧ (∀ a ∈ accesses, (standing s a).partFree = true) ∧ s.mode = .run ∧
    RecName.record .bay 0 ∈ s.reflect.list ∧ s.reflect.current = some (.record .bay 0, [[(8, 1#8), (9, 2#8)]]) ∧
    ({ s with port := { s.port with commit := some (.bay, 0) } } : State).partFree = false ∧
    ({ Ring.init with causeDeparture := true, overrun := true } : Ring).reads = false := by decide

/-- FetchOneSlot's clause of an entry that completes at once: its node has failed. -/
theorem test_witness_fetch_failed :
    stateCheck (loopOne .closed (node .bay .failed)) (entryOf 0 0 (slotBytes0 (fetching .idle 1 pollSlot))) = some (9, 0) ∧
    (fetching .idle 1 pollSlot).ring.queue 0 = [] := by decide +kernel

/-- FetchOneSlot: slots that fail each check of R149, in the order of its codes, for a BAY node at address 1 and no other. -/
theorem test_witness_slot_checks :
    (∀ p ∈ [([0#8, 0, 1, 0, 1, 0], (7, 1)), ([5, 0, 1, 0, 1, 0], (7, 1)), ([1, 4, 1, 0, 1, 0], (7, 2)), ([1, 0, 33, 0, 1, 0], (7, 3)),
      ([1, 0, 1, 0, 2, 0], (7, 3)), ([1, 0, 1, 0, 33, 0], (7, 5)), ([1, 0, 1, 0, 32, 1], (7, 4)), ([3, 0, 1, 0, 0, 12], (8, 1))],
      slotCheck (onLoop (loopOne .closed (node .bay .ready))) p.1 = some p.2) ∧
    slotCheck (onLoop (loopOne .closed (node .sign .ready))) [4#8, 0, 1, 0, 1, 16] = some (8, 2) ∧
    slotCheck (onLoop (loopOne .closed (node .bay .ready))) [3#8, 0, 1, 0, 1, 12, 0, 0, 255, 255] = none ∧
    sweepTaken 0 = 1 ∧ sweepTaken 32 = 32 := by decide +kernel

/-- A Host Queue entry of slot `i` for node 1. -/
def entry (i : Nat) : Entry :=
  { id := i, slot := i, kind := 1, first := 1, force := false, count := 1, payload := [], cur := 1, steps := 0, lastDone := 0,
    lastReply := [], inHand := false }

/-- FetchOneSlot's last clause: a Host Queue of eight entries. -/
theorem test_witness_fetch_full : 8 ≤ ((List.range 8).map entry).length ∧
    ∀ e ∈ (List.range 8).map entry, stateCheck (loopOne .closed (node .bay .ready)) e = none := by decide

/-- A part whose loop 0 has a node that is READY with a POLL mark, or with `q` in its Host Queue. -/
def dispatching (marks : List (Nat × Mark)) (q : List Entry) (out : Option Request) : State :=
  { onLoop { loopOne .closed { node .bay .ready with out := out } with order := marks } with
    ring := { Ring.init with queues := [(0, q)] } }

theorem settled_dispatching (x : Entry) (h : x.inHand = false) (hc : x.cur = 1) : (dispatching [] [x] none).settled := by
  intro l e he
  by_cases hl : l = 0
  · subst hl
    have : e = x := by simpa [Ring.queue, dispatching, Tab.get, earliest, h] using he
    subst this
    rw [stateCheck, hc]; rfl
  · simp [Ring.queue, dispatching, Tab.get, hl, earliest] at he

/-- A SHOW entry for a node that no SIGN record in MANUAL mode names. -/
def showEntry : Entry := { entry 0 with kind := 4 }

theorem test_witness_dispatch :
    mayDispatch (dispatching [(1, .poll)] [] none) 0 .a = true ∧
    chooseItem (dispatching [(1, .poll)] [] none) 0 ((dispatching [(1, .poll)] [] none).loop 0) [] .a = some (6, .work 1 .poll) ∧
    chooseItem (dispatching [] [entry 0] none) 0 ((dispatching [] [entry 0] none).loop 0) [entry 0] .a = some (4, .host (entry 0)) ∧
    chosenCheck (dispatching [] [entry 0] none) 0 (entry 0) = none ∧
    chooseItem (dispatching [] [] (some poll)) 0 ((dispatching [] [] (some poll)).loop 0) [] .a = some (6, .kept 1 poll) ∧
    chosenCheck (dispatching [] [showEntry] none) 0 showEntry = some (8, 2) ∧
    chooseItem (dispatching [] [showEntry] none) 0 ((dispatching [] [showEntry] none).loop 0) [showEntry] .a =
      some (4, .host showEntry) ∧
    chooseItem (dispatching [] [showEntry] none) 0 ((dispatching [] [showEntry] none).loop 0) ([showEntry].erase showEntry) .a = none := by
  decide +kernel

/-- EndDispatchHandsWork: the first step of a sweep, and its second. -/
def sweepEntry (steps : Nat) : Entry := { entry 0 with count := 2, steps := steps }

theorem test_witness_sweep_steps : ∀ k ∈ [0, 1],
    chooseItem (dispatching [] [sweepEntry k] none) 0 ((dispatching [] [sweepEntry k] none).loop 0) [sweepEntry k] .a =
      some (4, .host (sweepEntry k)) ∧ chosenCheck (dispatching [] [sweepEntry k] none) 0 (sweepEntry k) = none ∧
    mayDispatch (dispatching [] [sweepEntry k] none) 0 .a = true := by decide +kernel

theorem test_witness_sweep_settled (k : Nat) : (dispatching [] [sweepEntry k] none).settled := settled_dispatching _ rfl rfl

/-- DispatchChooses: an end that may take nothing, and end B while A is free with and without an item of its own. -/
theorem test_witness_may_dispatch :
    mayDispatch (onLoop { loopOne .closed (node .bay .ready) with order := [(1, .poll)], repairDue := true }) 0 .a = false ∧
    mayDispatch (onLoop { loopOne .broken { node .bay .ready with reach := .b } with order := [(1, .poll)] }) 0 .b = true ∧
    mayDispatch (onLoop { loopOne .broken (node .bay .ready) with order := [(1, .poll)] }) 0 .b = false ∧
    (node .light .ready).kind = .light ∧ (node .fan .ready).kind = .fan := by decide +kernel

/-- A part with a SHOW mark on a SIGN node whose sign's refresh timer is `refresh`, and these messages on their way. -/
def showing (refresh : Option Nat) (ms : List Msg) : State :=
  { onLoop { loopOne .closed (node .sign .ready) with order := [(1, .show)] } with
    guid := { Guid.init with signs := [(0, { GSign.init with inForce := { SignRec.init with node := 1, enabled := true }, refresh := refresh })] },
    chan := ms }

/-- DispatchChooses: a SHOW mark that may go, and one held back by each of the two. -/
theorem test_witness_show_held :
    let pick (s : State) := chooseItem s 0 (s.loop 0) [] .a
    pick (showing none []) = some (5, .work 1 .show) ∧ pick (showing (some 0) []) = none ∧
      pick (showing none [{ src := .controller 0, dst := .guidance, body := .showDone 1 0 [] }]) = none := by decide +kernel

theorem test_witness_loop_timers :
    ({ Loop.init with endA := some { flight (.request 1) with timer := none } } : Loop).flight .a ≠ none ∧
    (node .bay .failed).state = .failed ∧ (node .bay .failed).probeTaken = false ∧ (node .bay .failed).probeDue ≤ running.secs ∧
    nodeUsable (node .bay .waiting).state = true ∧ (node .bay .waiting).pollTaken = false ∧
    (node .bay .waiting).pollDue ≤ running.clock ∧
    ({ node .bay .ready with busy := some 0 } : Node).busy = some 0 ∧ 0 ≤ running.secs ∧
    running.due ({ Loop.init with repair := some 0 } : Loop).repair = true ∧
    ({ Loop.init with repairDue := true } : Loop).bothFree = true ∧
    ({ Loop.init with endA := some (flight .repairTest) } : Loop).dueFlight running .a = some (flight .repairTest) ∧
    ({ Loop.init with state := .broken, endA := some (flight .abandoned) } : Loop).dueFlight running .a =
      some (flight .abandoned) := by decide +kernel

/-- A loop with a BAY node at address 1 whose frame in flight on A has been abandoned and has timed out. -/
def abandoned (st : LoopState) (pass : Bool) : Loop :=
  { loopOne st (node .bay .ready) with endA := some { flight .abandoned with pass := pass } }

/-- LoopTimersRun: an abandoned frame in IDLE with the other end free and held, in PROBING with a node to take, with none, and with
an ECHO on the other end, and in CLOSED at the first and at a later miss. -/
theorem test_witness_abandoned :
    (∀ st ∈ [LoopState.idle, .probing, .broken], (abandoned st false).dueFlight running .a = some (flight .abandoned)) ∧
    ((abandoned .idle false).node 1).kind ≠ .none ∧ (abandoned .idle false).endB = none ∧ (abandoned .idle false).both = false ∧
    (({ abandoned .idle false with endB := some (flight .abandoned) } : Loop).setFlight .a none).endB ≠ none ∧
    (∀ p ∈ [(1, true), (2, false)], (discPick (abandoned .probing false)
      { next := p.1, current := none, behind := [], answered := false }).isSome = p.2) ∧
    ({ abandoned .probing false with endB := some (flight (.discovery 1)) } : Loop).endB = some (flight (.discovery 1)) ∧
    (abandoned .closed true).dueFlight running .a = some { flight .abandoned with pass := true } ∧
    (abandoned .closed true).missRun = 0 ∧ 1 ≤ ({ abandoned .closed true with missRun := 1 } : Loop).missRun := by decide +kernel

/-- FramesAtEnds: the longest payload is read back, and a frame is malformed in each of the ways of R126. -/
theorem test_witness_frame_bounds : (parseFrame (mkFrame 255 247 (List.replicate 16 9))).map (fun x => (x.addr, x.control, x.payload)) =
      some (255, 247, List.replicate 16 9) ∧ (247 : Nat).testBit 3 = false ∧
    (∀ bs ∈ [[1#8, 16], (mkFrame 1 16 [7]).take 5, mkFrame 1 16 (List.replicate 17 9), mkFrame 1 24 [], (mkFrame 1 16 []).set 3 0],
      parseFrame bs = none) := by decide +kernel

theorem test_witness_frames_in : parseFrame [] = none ∧ (parseFrame (mkFrame 129 16 [0])).isSome = true ∧
    (parseFrame (mkFrame 1 16 [])).isSome = true ∧ (parseFrame (mkFrame 1 16 [])).map (fun x => x.addr) = some 1 ∧
    (parseFrame (mkFrame 129 16 [0])).map (fun x => (x.addr, x.payload)) = some (129, [0]) ∧ ¬(End.a = .b) := by
  decide +kernel

/-- FramesAtEnds at B: the frame last sent on A with its pass-through open, of a request and of a test. -/
theorem test_witness_pass_through :
    (parseFrame testFrame).map (fun x => decide (x.whole = testFrame ∧ x.whole ≠ mkFrame 1 16 [])) = some true ∧
    ({ Loop.init with endA := some { flight .startTest with pass := true } } : Loop).testing = true ∧
    ({ Loop.init with state := .closed, endA := some { flight (.request 1) with pass := true } } : Loop).testing = false ∧
    ({ flight (.request 1) with pass := true } : Flight).timer.isSome = true := by decide +kernel

/-- The discovery ECHO to node 1 in flight. -/
def echoing : Flight := { frame := echoFrame 1, work := .discovery 1, timer := some 0, reply := true, pass := false }

/-- FramesAtEnds: a reply to a discovery ECHO, with another node to take and with none. -/
theorem test_witness_discovery :
    (parseFrame (mkFrame 129 128 [0])).map (fun x => (decide (128 ≤ x.addr), matchesFlight echoing x)) = some (true, true) ∧
    (discPick (loopOne .probing (node .bay .ready)) { next := 1, current := none, behind := [], answered := true }).isSome = true ∧
    discPick (loopOne .probing (node .bay .ready)) { next := 2, current := some 1, behind := [], answered := true } = none := by
  decide +kernel

/-- A request of a kind to node 1. -/
def asking (kind : Nat) (src : Source) : Request :=
  { kind := kind, frame := mkFrame 1 (controlByte kind 0) [], source := src, cls := 3 }

/-- LoopAndNodeCommands: a node that serves internal work, and one that serves a host request. -/
theorem test_witness_isolate_requests :
    ((onLoop (loopOne .closed { node .bay .waiting with out := some poll })).loop 0 |>.node 1).out = some poll ∧
    ((dispatching [] [entry 0] (some (asking 8 (.host 0 0)))).loop 0 |>.node 1).out = some (asking 8 (.host 0 0)) ∧
    (dispatching [] [entry 0] (some (asking 8 (.host 0 0)))).ring.entry 0 0 = some (entry 0) ∧
    (((dispatching [] [entry 0] (some (asking 8 (.host 0 0)))).ring.queue 0).map (fun y => y.id)).Nodup ∧
    ownerOf .bay = some .occupancy := by decide +kernel

/-- ReplyEndsRequest: replies of status OK, NODE_BUSY and OUT_OF_STEP to a POLL in flight. -/
theorem test_witness_reply : ∀ st ∈ [0#8, 4#8, 6#8],
    ((parseFrame (mkFrame 129 16 [st])).map (fun x => (matchesFlight (flight (.request 1)) x, x.payload))) = some (true, [st]) ∧
    ((loopOne .closed { node .bay .waiting with out := some poll }).node 1).out = some poll ∧ poll.kind ≠ 7 ∧ poll.kind ≠ 8 := by
  decide +kernel

/-- ReplyEndsRequest's clauses of what is delivered: a DONE reply to a POLL of each kind with its whole payload, to a MODIFY,
a SET and a SHOW, from a mark and from the ring, and a refused one. -/
theorem test_witness_deliveries :
    (∀ p ∈ [(1, [0#8, 1, 0, 0, 0, 2, 0, 0, 0]), (1, [0, 1, 0, 2, 0, 7]), (1, [0, 1, 50]), (1, [0, 1, 2, 3, 4]), (1, [0, 1]),
        (3, [0, 1, 2, 3, 4]), (2, [0]), (4, [0]), (3, [5]), (2, [4]), (1, [6])],
      (parseFrame (mkFrame 129 (controlByte p.1 0) p.2)).map (fun x =>
        (matchesFlight { flight (.request 1) with frame := (asking p.1 (.mark .output)).frame } x, x.payload)) = some (true, p.2)) ∧
    (asking 3 (.host 63 0)).source = .host 63 0 ∧ (asking 3 (.host 63 0)).kind = 3 ∧ (asking 2 (.mark .output)).source = .mark .output ∧
    (node .light .waiting).state = .waiting := by decide +kernel

/-- ReplyEndsRequest's clause of an internal SHOW, and JoinAndEchoReplies: a SHOW mark; JOIN replies that fit, that do not, and that are
not DONE; an ECHO reply. -/
theorem test_witness_join_echo :
    (asking 4 (.mark .show)).kind = 4 ∧ (node .sign .waiting).kind = .sign ∧ (node .sign .waiting).state = .waiting ∧
    (∀ p ∈ [[0#8, 1#8], [0#8, 2#8], [1#8, 1#8]],
      (parseFrame (mkFrame 129 112 p)).map (fun x => (matchesFlight { flight (.request 1) with frame := (asking 7 (.mark .join)).frame } x, x.payload))
        = some (true, p)) ∧
    kindOfCode 1 = (node .bay .joining).kind ∧ kindOfCode 2 ≠ (node .bay .joining).kind ∧ (node .bay .joining).kind ≠ .none ∧
    (parseFrame (mkFrame 129 128 [0, 9])).map (fun x => (matchesFlight { flight (.request 1) with frame := (asking 8 (.host 0 0)).frame } x, x.payload))
        = some (true, [0, 9]) := by decide +kernel

/-- A part with a request to node 1 in flight on end A, its timer run out. -/
def waiting (st : LoopState) (nd : Node) (w : Work) : State := onLoop { loopOne st nd with endA := some (flight w) }

theorem test_witness_timeouts :
    dueRequest (waiting .broken { node .bay .waiting with out := some poll, retry := 3 } (.request 1)) 0 .a =
      some (1, flight (.request 1)) ∧
    (({ node .bay .waiting with retry := 2 } : Node).retry < 3) ∧ poll.source = .mark .poll ∧
    (asking 8 (.host 0 0)).source = .host 0 0 ∧
    dueRequest (waiting .broken (node .bay .failed) (.request 1)) 0 .a = some (1, flight (.request 1)) ∧
    ((waiting .probing (node .bay .failed) (.discovery 1)).loop 0).dueFlight running .a = some (flight (.discovery 1)) ∧
    ({ Loop.init with endB := some (flight (.discovery 1)) } : Loop).dueFlight running .a = none ∧
    ({ Loop.init with endB := some (flight (.discovery 1)) } : Loop).dueFlight running .b = some (flight (.discovery 1)) := by
  decide +kernel

/-- TimeoutsTaken: the first frame of a pair and its second, and a reply timeout in CLOSED with the pass-through open. -/
theorem test_witness_pairs :
    (∀ k ≤ 3, let L := { loopOne .dead { node .bay .joining with out := some poll, retry := k } with both := true }
      dueRequest (onLoop { L with endA := some (flight (.request 1)) }) 0 .a = some (1, flight (.request 1)) ∧
      dueRequest (onLoop { L with endB := some (flight (.request 1)) }) 0 .b = some (1, flight (.request 1))) ∧
    (let f := { flight (.request 1) with pass := true }
     let L := { loopOne .closed { node .bay .waiting with out := some poll } with endA := some f }
     dueRequest (onLoop L) 0 .a = some (1, f) ∧ L.missRun = 0 ∧ L.both = false) := by decide +kernel

theorem test_witness_break :
    ({ Loop.init with state := .closed, endA := some { flight (.request 1) with pass := true } } : Loop).dueFlight running .a =
      some { flight (.request 1) with pass := true } ∧ Loop.init.missRun = 0 ∧
    ({ Loop.init with missRun := 1 } : Loop).missRun = 1 ∧
    ({ Loop.init with endA := some (flight .startTest) } : Loop).dueFlight running .a = some (flight .startTest) := by
  decide +kernel

/-- TimeoutsTaken: the reply timeout of a request in CLOSED whose pass-through is not known, after a first miss. -/
theorem test_witness_second_miss : ∀ st ∈ [NodeState.waiting, .joining, .failed],
    let L := { loopOne .closed { node .bay st with out := some poll } with
      missRun := 1, endA := some { flight (.request 1) with pass := true } }
    dueRequest (onLoop L) 0 .a = some (1, { flight (.request 1) with pass := true }) ∧ 1 ∈ addresses ∧
    L.dueFlight (onLoop L) .a = some { flight (.request 1) with pass := true } := by decide +kernel

/-- Discovery of one node, whose ECHO on B is unanswered. -/
def discovering (nd : Node) : Loop :=
  { loopOne .probing nd with
    disc := some { next := 2, current := some 1, behind := [], answered := false }, endB := some (flight (.discovery 1)) }

theorem test_witness_discovery_ends :
    (discovering (node .bay .ready)).disc = some { next := 2, current := some 1, behind := [], answered := false } ∧
    discPick (discovering (node .bay .ready)) { next := 2, current := some 1, behind := [], answered := false } = none ∧
    ((discovering (node .bay .ready)).dueFlight running .a) = none ∧
    ((discovering (node .bay .ready)).dueFlight running .b) = some (flight (.discovery 1)) := by decide +kernel

/-- A part whose ring holds an entry of slot 0 in loop 0, with an outcome of its step on the way. -/
def stepping (x : Entry) (o : StepOutcome) : State :=
  { onLoop (loopOne .closed (node .bay .ready)) with
    ring := { Ring.init with queues := [(0, [x])], taken := 1 },
    chan := [{ src := .controller 0, dst := .ring, body := .hostStep 0 0 1 o }] }

/-- The entry in hand. -/
def inHand : Entry := { entry 0 with inHand := true }

theorem test_witness_host_step : (stepping inHand (.done [])).ring.entry 0 0 = some inHand ∧
    (stepping inHand (.done [])).next? (.controller 0) .ring = some (.hostStep 0 0 1 (.done [])) ∧
    (stepping inHand (.ended 5 1)).next? (.controller 0) .ring = some (.hostStep 0 0 1 (.ended 5 1)) ∧
    (((stepping inHand (.done [])).ring.queue 0).map (fun y => y.id)).Nodup ∧
    (∀ y ∈ (stepping inHand (.done [])).ring.queue 0, y.id = 0) ∧
    inHand.steps + 1 = inHand.count ∧ ({ inHand with count := 2, cur := 32 } : Entry).steps + 1 ≠ 2 ∧
    stateCheck (loopOne .closed (node .bay .ready)) { inHand with count := 2, cur := 2 } = none ∧
    stateCheck { loopOne .closed (node .bay .ready) with nodes := [(2, node .bay .isolated)] } { inHand with count := 2, cur := 2 }
      = some (10, 0) := by decide +kernel

theorem test_witness_host_step_settled (o : StepOutcome) : (stepping inHand o).settled := by
  intro l e he
  by_cases hl : l = 0
  · subst hl; simp [Ring.queue, stepping, Tab.get, earliest, inHand] at he
  · simp [Ring.queue, stepping, Tab.get, hl, earliest] at he

/-! ### Witnesses at the units -/

/-- NodeNoticeTaken: each owner's clause, one node lost and one gained. -/
def noticing (k : NodeKind) (u : UnitId) (old new : NodeState) : State :=
  { told (.controller 0) u (.nodeNotice 1 old new) with loops := [(0, loopOne .closed (node k new))] }

theorem test_witness_node_notice : ∀ p ∈ [(NodeKind.bay, UnitId.occupancy), (.sign, .guidance), (.light, .lighting), (.gas, .air), (.fan, .fan)],
    ownerOf ((noticing p.1 p.2 .ready .failed).kindOf 0 1) = some p.2 ∧
    (noticing p.1 p.2 .ready .failed).next? (.controller 0) p.2 = some (.nodeNotice 1 .ready .failed) ∧
    nodeUsable .ready = true ∧ nodeUsable .failed = false ∧
    (noticing p.1 p.2 .joining .ready).next? (.controller 0) p.2 = some (.nodeNotice 1 .joining .ready) ∧
    nodeUsable .joining = false := by decide

/-- Maps in which record 0 of each table claims node 1 of loop 0, at input 15 or output 0. -/
def mapsOne : Maps :=
  { input := [(inputKey 0 1 15, some 0)], output := [(outputKey 0 1 0, some 0)], fanNode := [(nodeKey 0 1, some 0)],
    fanGroup := [(0, some 0)], signNode := [(nodeKey 0 1, some 0)] }

/-- The part with those maps. -/
def mapped (s : State) : State := { s with capture := { s.capture with maps := mapsOne } }

/-- A sign in AUTO mode in force on node 1 of loop 0. -/
def signOne : Guid :=
  { Guid.init with signs := [(0, { GSign.init with inForce := { SignRec.init with node := 1, enabled := true }, valid := true })] }

/-- EndDispatchHandsWork: the one sign that stands on the node. -/
theorem test_witness_show_content : (signOne.sign 0).inForce.mode = 0 ∧ signOne.signsOn 0 1 = [0] := by decide

/-- NodeNoticeTaken: the maps name a fan on the node, and the records in force a sign and a bay. -/
theorem test_witness_node_maps : mapsOne.signAt 0 1 = some 0 ∧ mapsOne.fanAt 0 1 = some 0 ∧
    (signOne.sign 0).inForce.enabled = true ∧ (signOne.sign 0).inForce.loop = 0 ∧ (signOne.sign 0).inForce.node = 1 ∧
    nodeOk 1 = true ∧ FanU.init.state ≠ .isolated ∧ FanU.init.state ≠ .fault ∧ BayU.init.state = .disabled ∧
    ({ BayU.init with state := .free } : BayU).state ≠ .closed := by decide

/-- A part with one enabled bay in a state, on input 15 of node 1 of loop 0. -/
def withBay (st : BayState) (p : Option Sensed) (agree : Nat) : State :=
  { told (.controller 0) .occupancy (.bayPoll 1 0x8000 0 0) with
    occ := { Occ.init with inputs := [(inputKey 0 1 15, some 0)], bays := [(0, { BayU.init with
      inForce := { BayRec.init with node := 1, input := 15, enabled := true }, state := st, pend := p, agree := agree })] } }

theorem test_witness_bay_poll : ∀ p ∈ [(BayState.free, none, 0), (.free, some Sensed.occupied, 1), (.occupied, none, 0), (.closed, none, 0)],
    (withBay p.1 p.2.1 p.2.2).next? (.controller 0) .occupancy = some (.bayPoll 1 0x8000 0 0) ∧
    (withBay p.1 p.2.1 p.2.2).occ.bayAt 0 1 15 = some 0 ∧
    (∀ j < 16, (withBay p.1 p.2.1 p.2.2).occ.bayAt 0 1 j = some 0 → j = 15) := by decide

/-- BayPollConfirms: the bay is the only one of its zone on the node. -/
theorem test_witness_bay_alone : ∀ j < 16, j ≠ 15 → (withBay .free none 0).occ.bayAt 0 1 j = none := by decide

theorem test_witness_output_replies :
    (told (.controller 0) .occupancy (.modify 1 0 0)).next? (.controller 0) .occupancy = some (.modify 1 0 0) ∧
    (told (.controller 0) .lighting (.lightSet 1 0 [])).next? (.controller 0) .lighting = some (.lightSet 1 0 []) ∧
    (told (.controller 0) .lighting (.lightPoll 1 [])).next? (.controller 0) .lighting = some (.lightPoll 1 []) ∧
    (told (.controller 0) .guidance (.signPoll 1 0)).next? (.controller 0) .guidance = some (.signPoll 1 0) ∧
    (told (.controller 0) .guidance (.showDone 1 1 [])).next? (.controller 0) .guidance = some (.showDone 1 1 []) ∧
    (0#8).getLsbD 0 = false ∧ mapsOne.signAt 0 1 = some 0 := by decide

/-- SignsShown and ListsAndBoundsKept: a part in LOADING that is to read an image. -/
theorem test_witness_loading_quiet : State.reset.mode = .loading ∧ State.reset.loadingQuiet :=
  ⟨rfl, fun _ => ⟨fun _ => rfl, fun _ h => absurd h List.not_mem_nil, rfl, rfl⟩⟩

/-- SignsShown: a line with no zone, one with a CLOSED zone, and one with an open zone; a refresh timer that has run out. -/
theorem test_witness_sign_lines : (List.range 16).filter (fun z => SignLine.init.mask.getLsbD z) = [] ∧
    (List.range 16).filter (fun z => (1#16).getLsbD z) = [0] ∧ (Guid.init.zone 0).gstate = .closed ∧
    running.due ({ GSign.init with refresh := some 0 } : GSign).refresh = true := by decide

theorem test_witness_gas_poll : ∀ f ∈ [0#8, 1#8, 2#8, 4#8],
    (told (.controller 0) .air (.gasPoll 1 65535 0 f)).next? (.controller 0) .air = some (.gasPoll 1 65535 0 f) := by decide

theorem test_witness_gas_flags : (2#8).getLsbD 1 ≠ Head.init.zeroing ∧ (0#8).getLsbD 1 = Head.init.zeroing ∧
    (4#8).getLsbD 2 = true ∧ Head.init.zeroFailed = false := by decide

/-- Air with an enabled zone that includes the head on node 1 of loop 0. -/
def airOne : Air :=
  { Air.init with zones := [(0, { AZone.init with inForce := { ZoneRec.init with heads := [(0, 1), (0, 0), (0, 0), (0, 0)], enabled := true } })] }

/-- EndDispatchHandsWork: a ZERO entry for the last valid head of a zone, without and with Force. -/
theorem test_witness_last_head :
    let s := { running with air := { airOne with
      heads := [(nodeKey 0 1, { Head.init with ring := [(50, 3)], fresh := some 9, usable := true })] } }
    chosenCheck s 0 { entry 0 with kind := 5 } = some (11, 0) ∧ chosenCheck s 0 { entry 0 with kind := 5, force := true } = none ∧
      chosenCheck running 0 { entry 0 with kind := 5 } = none := by decide +kernel

/-- ZonesFollowHeads: a zone of the head and one that is not; values on both sides of a threshold. -/
theorem test_witness_zones : 0 ∈ zonesOfHead airOne 0 1 ∧ 1 ∉ zonesOfHead airOne 0 1 ∧ Air.init.override ≠ .clearing ∧
    headsOf (airOne.zone 0).inForce ≠ [] ∧ validHeads airOne (airOne.zone 0).inForce = [] ∧
    validHeads { airOne with heads := [(nodeKey 0 1, { Head.init with ring := [(50, 3)], fresh := some 9, usable := true })] }
      (airOne.zone 0).inForce ≠ [] ∧
    levelFor 20 10 20 30 2 0 = 2 ∧ levelFor 19 10 20 30 2 2 = 2 ∧ levelFor 17 10 20 30 2 2 = 1 := by decide

/-- FanRepliesTaken: an enabled fan on the node that the map names, in each state the statement speaks of. -/
def polledFan (st : FanState) : State :=
  { mapped (told (.controller 0) .fan (.fanPoll 1 1 100)) with
    fan := { Fan.init with fans := [(0, { FanU.init with inForce := { FanRec.init with node := 1, enabled := true }, state := st })],
                           queue := if st = .queued then [(0, false)] else [] } }

theorem test_witness_fan_polls : ∀ st ∈ [FanState.stopped, .queued, .starting, .running, .stopping, .fault, .isolated],
    (polledFan st).fan.queueOk = true ∧ (polledFan st).next? (.controller 0) .fan = some (.fanPoll 1 1 100) ∧
    (polledFan st).maps.fanAt 0 1 = some 0 ∧ ((polledFan st).fan.fan 0).inForce.enabled = true ∧
    ((polledFan st).fan.fan 0).state = st := by decide

/-- FanRepliesTaken: a feedback notice of each level at an enabled fan in each state, and a drive fault in a reply. -/
theorem test_witness_feedback : ∀ st ∈ [FanState.stopped, .queued, .starting, .running, .stopping, .fault, .isolated], ∀ on : Bool,
    let s := { polledFan st with chan := [{ src := .terminal, dst := .fan, body := .feedback 0 15 (some on) }] }
    s.next? .terminal .fan = some (.feedback 0 15 (some on)) ∧ (s.fan.fan 0).inForce.enabled = true ∧ s.fan.queueOk = true ∧
      ((2#8).getLsbD 1 = true ∧ (1#8).getLsbD 1 = false) := by decide

/-- WantedSetsFollow: a group with a Duty List, and the stage notice that moves it. -/
theorem test_witness_wanted : ({ GroupRec.init with duty := [3, 255, 7, 255, 255, 255, 255, 255], enabled := true } : GroupRec).enabled = true ∧
    dutySeq { GroupRec.init with duty := [3, 255, 7, 255, 255, 255, 255, 255] } = [3, 7] ∧
    (told .air .fan (.stage 0 2)).next? .air .fan = some (.stage 0 2) := by decide

theorem test_witness_fan_replies :
    (told (.controller 0) .fan (.fanPoll 1 2 100)).next? (.controller 0) .fan = some (.fanPoll 1 2 100) ∧ (2#8).getLsbD 1 = true ∧
    (told (.controller 0) .fan (.fanSet 1 0)).next? (.controller 0) .fan = some (.fanSet 1 0) ∧
    (told .terminal .fan (.feedback 0 15 none)).next? .terminal .fan = some (.feedback 0 15 none) ∧
    (told .terminal .fan (.feedback 0 15 (some true))).next? .terminal .fan = some (.feedback 0 15 (some true)) := by decide

theorem test_witness_free_and_fault :
    (told .occupancy .guidance (.freeLost 15 2 0)).next? .occupancy .guidance = some (.freeLost 15 2 0) ∧
    (told .occupancy .guidance (.freeLost 0 0 0)).next? .occupancy .guidance = some (.freeLost 0 0 0) ∧
    (Guid.init.zone 0).holds = (Guid.init.holds.filter (fun h => decide (h.zone = 0))).length ∧
    (told .occupancy .guidance (.freeGained 0 0 2048)).next? .occupancy .guidance = some (.freeGained 0 0 2048) ∧
    (told .occupancy .guidance (.faultAsserted 0)).next? .occupancy .guidance = some (.faultAsserted 0) ∧
    (told .occupancy .guidance (.faultWithdrawn 0)).next? .occupancy .guidance = some (.faultWithdrawn 0) := by decide

/-- A zone open to drivers with one free bay more than its holds, a hold on it, and the gate that made it. -/
def openZone : GZone :=
  { GZone.init with general := 2, holds := 1, gstate := .opened,
                    reasons := { host := false, air := false, override := false, fault := false, disabled := false } }

/-- The hold. -/
def oneHold : Hold := { id := 0, gate := 0, zone := 0, position := 0, route := [63], created := 0, expiry := 0 }

/-- An enabled gate for zone 0. -/
def openGate : GGate := { GGate.init with inForce := { GateRec.init with pref := [0, 255, 255, 255, 255, 255], enabled := true } }

/-- A part with them and a message for Guidance. -/
def guided (src : Sender) (b : Body) : State :=
  { told src .guidance b with
    guid := { Guid.init with zones := [(0, openZone)], holds := [oneHold], gates := [(0, openGate)] } }

theorem test_witness_hold_ends : (guided .occupancy (.occupiedAccepted 0)).guid.holds[0]? = some oneHold ∧
    ((guided .occupancy (.occupiedAccepted 0)).guid.zone 0).gstate = ((guided .occupancy (.occupiedAccepted 0)).guid.zone 0).state ∧
    oldestOf [oneHold] 0 = some 0 ∧ oldestOf [oneHold] 1 = none ∧ oneHold.expiry ≤ running.secs ∧
    (guided .occupancy (.occupiedAccepted 0)).next? .occupancy .guidance = some (.occupiedAccepted 0) ∧
    (guided .occupancy (.occupiedAccepted 1)).next? .occupancy .guidance = some (.occupiedAccepted 1) := by decide

/-- CommandsAndClears: HOLDS_CLEAR of a zone and of every zone, in a unit that keeps R45. -/
theorem test_witness_holds_clear (b : Body) : (guided .occupancy b).guid.evaluated ∧ (guided .occupancy b).open_ ∧
    (guided .occupancy b).mode = .run ∧ argVal (some 0) < (guided .occupancy b).count .zone ∧ argVal (some 255) = 255 := by
  refine ⟨fun z => ?_, ⟨rfl, rfl⟩, rfl, show (0 : Nat) < 16 from by decide, rfl⟩
  by_cases h : z = 0
  · subst h; rfl
  · simp [guided, Guid.zone, Tab.get, h]; rfl

theorem test_witness_gate_events : (guided .terminal (.entry 0)).next? .terminal .guidance = some (.entry 0) ∧
    findTarget (guided .terminal (.entry 0)).guid openGate.inForce = some 0 ∧ (guided .terminal (.entry 0)).guid.holds.length < 64 ∧
    (findTarget Guid.init openGate.inForce = none) ∧ 64 ≤ (List.replicate 64 oneHold).length ∧
    (guided .terminal (.exit 0)).next? .terminal .guidance = some (.exit 0) ∧ openGate.inForce.enabled = true ∧
    GGate.init.inForce.enabled = false ∧
    (guided .terminal (.gateQueue 0 true)).next? .terminal .guidance = some (.gateQueue 0 true) := by decide

/-- GateEventsTaken and FreeAndFaultNotices: a queue notice that changes QUEUE and one that does not, a Route with a channel
twice and 255, and a loss of GENERAL bays below the holds and of another class. -/
theorem test_witness_gate_queue_and_free : openGate.queue = false ∧
    (guided .terminal (.gateQueue 0 false)).next? .terminal .guidance = some (.gateQueue 0 false) ∧
    routeOf [7, 255, 9, 7] = [7, 9] ∧ openZone.gstate = openZone.state ∧
    openZone.holds = ([oneHold].filter (fun h => decide (h.zone = 0))).length ∧
    (guided .occupancy (.freeLost 0 0 0)).next? .occupancy .guidance = some (.freeLost 0 0 0) ∧
    (guided .occupancy (.freeLost 0 1 0)).next? .occupancy .guidance = some (.freeLost 0 1 0) := by decide

theorem test_witness_light_and_air :
    (told .occupancy .lighting (.presence 63)).next? .occupancy .lighting = some (.presence 63) ∧
    (told .guidance .lighting (.routeRaised 0)).next? .guidance .lighting = some (.routeRaised 0) ∧
    (told .guidance .lighting (.routeLowered 0)).next? .guidance .lighting = some (.routeLowered 0) ∧
    (told .occupancy .air (.traffic 15)).next? .occupancy .air = some (.traffic 15) ∧
    (told .guidance .air (.queueRaised 0)).next? .guidance .air = some (.queueRaised 0) ∧
    (told .guidance .air (.queueWithdrawn 0)).next? .guidance .air = some (.queueWithdrawn 0) ∧
    AZone.init.inForce.trafficHold = 0 ∧ LChan.init.inForce.enabled = false := by decide

theorem test_witness_copies : (∀ u ∈ [UnitId.guidance, .lighting, .fan, .terminal],
      (told .air u (.stage 15 4)).next? .air u = some (.stage 15 4) ∧
      (told .air u (.override .clearing [])).next? .air u = some (.override .clearing [])) ∧ 15 < running.count .zone ∧
    (told .guidance .terminal (.gateFull 7 true)).next? .guidance .terminal = some (.gateFull 7 true) ∧
    (told .air .terminal (.alarm true)).next? .air .terminal = some (.alarm true) := by decide

/-- The Lighting Unit in CLEARING with zone 0 at stage 4, an enabled channel of it, and on their way the override notice of
the end of CLEARING and the zone's stage notice behind it. -/
def clearingEnds : State :=
  { running with
    light := { Light.init with chans := [(0, { LChan.init with inForce := { ChannelRec.init with idle := 10, enabled := true }, level := 100 })],
                               stages := [(0, 4)], override := .clearing },
    chan := [{ src := .air, dst := .lighting, body := .override .normal [] }, { src := .air, dst := .lighting, body := .stage 0 1 }] }

/-- NoticesTaken: both notices can be taken at the Lighting Unit, and elsewhere the stage notice in its turn. -/
theorem test_witness_either_order : clearingEnds.next? .air .lighting = some (.override .normal []) ∧
    clearingEnds.nextPast? (letsPass .lighting) .air .lighting = some (.stage 0 1) ∧
    (∀ u ∈ [UnitId.guidance, .lighting, .fan, .terminal],
      (told .air u (.stage 15 4)).nextPast? (letsPass u) .air u = some (.stage 15 4)) := by decide

theorem test_witness_smoke : (told .terminal .air (.smoke true)).next? .terminal .air = some (.smoke true) ∧
    running.air.smoke = false ∧ running.air.override = .normal ∧
    (told .terminal .air (.smoke false)).next? .terminal .air = some (.smoke false) ∧
    running.due ({ Air.init with purgeTimer := some 0, override := .clearing } : Air).purgeTimer = true := by decide

/-- A part in an override with this smoke copy, one enabled zone, its purge timer as in CLEARING or stopped, and a smoke
notice on its way. -/
def overridden (o : Override) (copy notice : Bool) : State :=
  { told .terminal .air (.smoke notice) with
    air := { airOne with smoke := copy, override := o, alarm := true, purgeTimer := if o = .clearing then some 60000 else none } }

/-- SmokeOverridePasses: ACTIVE with the smoke copy true, CLEARING with smoke arriving, and a notice that changes nothing. -/
theorem test_witness_smoke_passages :
    ((overridden .active true false).next? .terminal .air = some (.smoke false) ∧ (overridden .active true false).air.smoke = true ∧
      (overridden .active true false).air.override = .active) ∧
    ((overridden .clearing false true).next? .terminal .air = some (.smoke true) ∧ (overridden .clearing false true).air.smoke = false ∧
      (overridden .clearing false true).air.override = .clearing) ∧
    (overridden .active true true).air.smoke = true := by decide

/-- TimersAndTicks and TerminalInputs: a timer that expires now. -/
theorem test_witness_timer : running.due (some 0) = true ∧ State.due { running with clock := 7 } (some 7) = true := by decide

theorem test_witness_terminal : running.term.lines.getLsbD 15 = false ∧ running.term.lines.getLsbD 15 ≠ true ∧
    debounceTime (.gateIn 7) = some 100 ∧
    ({ TermU.init with func := some (.gateOut 0, 2) } : TermU).func = some (.gateOut 0, 2) ∧
    Term.active { running with term := Term.init 1 } (Term.init 1) 0 = true := by decide

/-- A part in RUN whose terminal 0 carries a function. -/
def terminal (x : TermU) : State := { running with term := { Term.init 1 with terms := [(0, x)] } }

/-- TerminalInputs: the smoke input changes with its line; a queue that begins, and one that ends. -/
theorem test_witness_terminal_events :
    (let s := terminal { TermU.init with func := some (.smoke, 0) }
     s.term.smokeInput s ≠ ({ s.term with lines := s.term.lines ^^^ 1 } : Term).smokeInput s) ∧
    (terminal { TermU.init with func := some (.gateOut 3, 0), exitTimer := some 0 }).due (some 0) = true ∧
    Tab.get false (terminal { TermU.init with func := some (.gateOut 3, 0), mark := true }).term.queued 3 = false := by decide +kernel

/-- TimersAndTicks: a unit that keeps law 6 with a fan waiting in its queue. -/
def queuedFan : State :=
  { running with fan := { Fan.init with fans := [(0, { FanU.init with state := .queued })], queue := [(0, true)], override := .active,
                                        interval := some 0 } }

theorem test_witness_start_queue : queuedFan.fan.queueOk = true ∧ queuedFan.due queuedFan.fan.interval = true := by decide

/-- FunctionEvaluationChooses and EntryToRun: candidates that name a function, one usable and one not. -/
theorem test_witness_gives : namesFunc (1, 3) (.gateIn 3) ∧ ¬(Term.init 1).canUse 0 (.gateIn 3) ∧ namesFunc (5, 0) .plainIn ∧
    (Term.init 1).canUse 0 .plainIn := by simp [namesFunc, Term.canUse, Term.init, Tab.get, GateRec.init]

/-- CommitsTaken: the pair of a commit at its unit, for each table. -/
def pair (u : UnitId) (old new : AnyRec) : State := told .capture u (.commit 0 old new)

theorem test_witness_commits :
    (pair .occupancy (.bay BayRec.init) (.bay { BayRec.init with enabled := true })).next? .capture .occupancy =
      some (.commit 0 (.bay BayRec.init) (.bay { BayRec.init with enabled := true })) ∧
    (pair .lighting (.channel ChannelRec.init) (.channel ChannelRec.init)).next? .capture .lighting =
      some (.commit 0 (.channel ChannelRec.init) (.channel ChannelRec.init)) ∧
    (pair .fan (.fan FanRec.init) (.fan FanRec.init)).next? .capture .fan = some (.commit 0 (.fan FanRec.init) (.fan FanRec.init)) ∧
    (pair .fan (.group GroupRec.init) (.group GroupRec.init)).next? .capture .fan =
      some (.commit 0 (.group GroupRec.init) (.group GroupRec.init)) ∧
    (pair .air (.zone { ZoneRec.init with enabled := true }) (.zone ZoneRec.init)).next? .capture .air =
      some (.commit 0 (.zone { ZoneRec.init with enabled := true }) (.zone ZoneRec.init)) ∧
    (pair .guidance (.zone ZoneRec.init) (.zone ZoneRec.init)).next? .capture .guidance =
      some (.commit 0 (.zone ZoneRec.init) (.zone ZoneRec.init)) ∧
    (pair .guidance (.gate GateRec.init) (.gate GateRec.init)).next? .capture .guidance =
      some (.commit 0 (.gate GateRec.init) (.gate GateRec.init)) ∧
    (pair .guidance (.sign SignRec.init) (.sign SignRec.init)).next? .capture .guidance =
      some (.commit 0 (.sign SignRec.init) (.sign SignRec.init)) ∧ (running.guid.sign 0).inForce = SignRec.init ∧
    (running.guid.zone 0).inForce = ZoneRec.init ∧ (running.guid.gate 0).inForce = GateRec.init := by decide

/-- The record of the bay of `withBay`. -/
def bayOn : BayRec := { BayRec.init with node := 1, input := 15, enabled := true }

/-- CommitsTaken: BAY pairs between two enabled records that move the bay, close it, open it and change its counting place,
and a SIGN pair that withdraws. -/
theorem test_witness_bay_pairs : (∀ p ∈ [(bayOn, { bayOn with input := 3 }), (bayOn, { bayOn with closed := true }),
      ({ bayOn with closed := true }, bayOn), (bayOn, { bayOn with zone := 1 }), (bayOn, bayOn)],
      (pair .occupancy (.bay p.1) (.bay p.2)).next? .capture .occupancy = some (.commit 0 (.bay p.1) (.bay p.2)) ∧
      p.1.enabled = true ∧ p.2.enabled = true) ∧
    (let old := { SignRec.init with node := 1, enabled := true }
     (pair .guidance (.sign old) (.sign { old with mode := 2 })).next? .capture .guidance =
       some (.commit 0 (.sign old) (.sign { old with mode := 2 })) ∧ old ≠ { old with mode := 2 }) := by decide

/-- CommitsTaken: ZONE pairs that enable and disable, a CHANNEL pair that moves, and a GATE pair of a queue that passes on. -/
theorem test_witness_zone_gate_pairs :
    let z := { ZoneRec.init with enabled := true }
    (∀ p ∈ [(ZoneRec.init, z), (z, ZoneRec.init), (z, { z with floor := 2 }), (ZoneRec.init, { ZoneRec.init with floor := 2 })],
      (pair .air (.zone p.1) (.zone p.2)).next? .capture .air = some (.commit 0 (.zone p.1) (.zone p.2))) ∧
    (let c := { ChannelRec.init with node := 1, enabled := true }
     (pair .lighting (.channel c) (.channel { c with node := 2 })).next? .capture .lighting =
       some (.commit 0 (.channel c) (.channel { c with node := 2 })) ∧ c.places = [(0, 1)]) ∧
    openGate.inForce.zone ≠ 1 ∧ ({ openGate with queue := true } : GGate).queue = true := by decide

/-- FanAndGroupCommits: pairs that begin at the record in force, and the laws of the unit. -/
theorem test_witness_fan_commits :
    (pair .fan (.fan FanRec.init) (.fan { FanRec.init with node := 1, enabled := true })).next? .capture .fan =
      some (.commit 0 (.fan FanRec.init) (.fan { FanRec.init with node := 1, enabled := true })) ∧
    (running.fan.fan 0).inForce = FanRec.init ∧ (running.fan.group 0).inForce = GroupRec.init ∧ running.fan.queueOk = true := by
  decide

theorem test_witness_groups : running.fan.groupsOk ∧ running.fan.timersOk :=
  ⟨fun _ => ⟨rfl, rfl, rfl⟩,
   fun _ => ⟨⟨(nomatch ·), (nomatch ·)⟩, ⟨(nomatch ·), (nomatch ·)⟩, fun _ _ => rfl⟩⟩

theorem test_witness_function_evaluation :
    (pair .terminal (.gate GateRec.init) (.gate GateRec.init)).next? .capture .terminal =
      some (.commit 0 (.gate GateRec.init) (.gate GateRec.init)) ∧ (AnyRec.gate GateRec.init).table = .gate := by decide

/-! ### Witnesses of the frames and the invariants -/

theorem test_witness_unit_of : unitOf running .smokeActive = some .air ∧
    unitOf (noticing .fan .fan .ready .failed) (.nodeNotice 0 1 .ready .failed) = some .fan ∧
    unitOf running (.hostRequestCompletion 0 63) = some .ring := by decide

theorem test_witness_loop_of : loopOf (.endDispatch 3 .b) = some 3 := rfl

/-- A state that keeps every invariant, before a step that is not idle. -/
def ticking : State := { State.reset with pending := [.clockTick] }

theorem test_witness_step : step ticking = .next { State.reset with clock := 1 } := rfl

theorem test_witness_invariants : ticking.memWf = true ∧
    ticking.reflect.single = true ∧ ticking.fan.oneStarting = true ∧ ticking.fan.queueOk = true ∧
    ticking.guid.holdsOk = true ∧ ticking.ring.queuesOk = true ∧ ticking.port.counterOk = true ∧
    ticking.live.attentionOk = true ∧ ticking.live.droppedOk = true := by decide

theorem test_witness_evaluated : ticking.guid.holdsOpen ∧ ticking.guid.evaluated ∧ ticking.guid.holdsCounted ∧
    ticking.guid.holdsWithin ∧ ticking.light.evaluated ∧ (∀ l, (ticking.loop l).orderOk = true) ∧ ticking.settled ∧
    ticking.ring.idsOk ∧ ticking.fan.groupsOk ∧ ticking.fan.timersOk :=
  ⟨fun _ h => absurd h List.not_mem_nil, fun _ => rfl, fun _ => rfl, fun _ => Nat.le_refl 0, fun _ => ⟨rfl, rfl⟩, fun _ => rfl,
   settled_of_empty _ rfl, fun _ => ⟨List.nodup_nil, fun _ h => absurd h List.not_mem_nil⟩, test_witness_groups.1,
   test_witness_groups.2⟩

theorem test_witness_shown : ticking.guid.shownOk := ⟨fun _ _ => rfl, fun _ => rfl⟩

theorem test_witness_counted : ticking.occ.counted :=
  ⟨rfl, fun _ => ⟨⟨fun _ => rfl, fun _ => rfl⟩, (nomatch ·)⟩, fun _ => ⟨rfl, rfl, rfl, rfl, rfl, fun _ => rfl⟩⟩

/-- OccCountsKept: no bay is enabled and no input is claimed. -/
theorem test_witness_mapped : ticking.occ.mapped := fun _ _ => ⟨(nomatch ·), fun h => nomatch h.1⟩

/-- OccCountsKept: a poll reply from a usable node with a FREE bay, in a unit that keeps its laws. -/
def freeBay : State :=
  let s := withBay .free none 0
  { s with occ := { s.occ with zones := [(0, { OccZone.init with general := 1, enabled := 1 })],
                               nodes := [(nodeKey 0 1, { usable := true, reported := none })] } }

theorem test_witness_confirmed : freeBay.occ.counted ∧ freeBay.occ.mapped ∧ freeBay.occ.confirmed ∧
    freeBay.next? (.controller 0) .occupancy = some (.bayPoll 1 0x8000 0 0) ∧ (freeBay.occ.node 0 1).usable = true := by
  refine ⟨⟨rfl, fun i => ?_, fun z => ?_⟩, fun k i => ?_, fun i => ?_, rfl, rfl⟩
  · by_cases h : i = 0
    · subst h; decide
    · simp [freeBay, withBay, Occ.bay, Tab.get, h, BayU.init, BayRec.init]
  · by_cases h : z = 0
    · subst h; decide
    · simp [freeBay, withBay, Occ.zone, Tab.get, h, OccZone.init, BayU.init, BayRec.init, Ne.symm h]
  · by_cases h : i = 0
    · subst h
      by_cases hk : k = inputKey 0 1 15
      · subst hk; decide
      · simp [freeBay, withBay, Occ.bay, Tab.get, hk, BayU.init, BayRec.init, Ne.symm hk]
    · by_cases hk : k = inputKey 0 1 15 <;> simp [freeBay, withBay, Occ.bay, Tab.get, h, hk, BayU.init, BayRec.init, Ne.symm h]
  · by_cases h : i = 0
    · subst h; decide
    · simp [freeBay, withBay, Occ.bay, Tab.get, h, BayU.init, BayRec.init]

/-- LightLevelsKept: a hold whose Route lists a channel, one of its notices still on its way. -/
theorem test_witness_routes :
    ({ guided .occupancy (.occupiedAccepted 0) with
        chan := [{ src := .guidance, dst := .lighting, body := .routeRaised 63 }] } : State).routesCounted := by
  intro ch
  by_cases h : ch = 63
  · subst h; rfl
  · simp [guided, told, running, State.reset, State.afterReset, routeChain, Light.chan, Light.init, Tab.get, LChan.init, oneHold,
      Ne.symm h]

/-- ListsAndBoundsKept: one request fetched and in its queue. -/
theorem test_witness_fetched : let r := { (stepping inHand (.done [])).ring with fetch := 1 }
    Ring.idsOk r ∧ Ring.fetchedOnce r := by
  refine ⟨fun l => ?_, rfl, fun l k hlk x hx y hy => ?_⟩
  · by_cases h : l = 0
    · subst h; decide
    · simp [stepping, Ring.queue, Tab.get, h]
  · by_cases h : l = 0
    · subst h; simp [stepping, Ring.queue, Tab.get, Ne.symm hlk] at hy
    · simp [stepping, Ring.queue, Tab.get, h] at hx

theorem test_witness_lawful : ticking.air.lawful :=
  ⟨rfl, fun _ _ => ⟨(nomatch ·), fun _ => ⟨rfl, rfl, rfl, rfl⟩⟩⟩

/-! ### One step of a small state -/

/-- The next state of a command. -/
def after (c : Instr) (s : State) : State :=
  match exec c s with
  | .next t => t
  | .fault _ | .refused _ => State.reset

/-- The digits 1 to 9 in ASCII: the usual check string of a CRC. -/
def digits : List Byte := [0x31, 0x32, 0x33, 0x34, 0x35, 0x36, 0x37, 0x38, 0x39]

/-- R126: the CRC-16 with polynomial 8005h reflected, started from FFFFh. -/
theorem test_crc16 : crc16 digits = 0x4B37#16 := by decide +kernel

/-- R170: the CRC-32 with polynomial 04C11DB7h reflected. -/
theorem test_crc32 : crc32 digits = 0xCBF43926#32 := by decide +kernel

/-- R126: a frame of the part's own making is well formed, and one with a changed byte is not. -/
theorem test_frame : (parseFrame (mkFrame 1 16 [7])).map (fun x => (x.addr, x.control, x.payload)) = some (1, 16, [7]) ∧
    parseFrame ((mkFrame 1 16 [7]).set 3 8) = none := by decide +kernel

/-- R155: a plain write reaches memory on its lanes alone. -/
theorem test_plain_write : (after (.plainBeat (beat true 0xF00000 5 0x44332211)) running).mem = [(0xF00000, 0x11), (0xF00002, 0x33)] := by
  decide +kernel

/-- R8, R9: the beat with the Commit byte holds the record; its read-back with Enable 0 gives DISABLED. -/
theorem test_commit : (after (.tableWriteBeat (beat true 0x0804 1 0)) running).port.commit = some (.fan, 0) ∧
    ((after .commitReadBackDone (after (.tableWriteBeat (beat true 0x0804 1 0)) running)).capture.mark .fan 0).verdict = 1 := by
  decide +kernel

/-- R10, R21: a BAY record that passes is handed to the Occupancy Unit and the Terminal Block. -/
theorem test_commit_applied :
    (after .commitReadBackDone (committing [(0xE01, 1), (0xE05, 255), (0xE07, 1)])).chan.map (fun m => m.dst) = [.occupancy, .terminal] := by
  decide +kernel

/-- R159: a locked granule drops the beat and counts it. -/
theorem test_guard_drop :
    let s := after (.tableWriteBeat (beat true 0 15 0)) { running with guard := { Guard.init with locks := 1 } }
    s.live.dropped = 1 ∧ s.mem = [] ∧ s.live.pendingAtt = 0x100#16 := by decide +kernel

/-- R7: the low byte of Presence Hold that no high byte follows is lost. -/
theorem test_hold_low : (after (.tableWriteBeat (beat true 0x8E04 8 0x05000000)) running).live.laneDrops = 1 := by decide +kernel

/-- R160: LOCK_GRANULE sets its bit, and a granule beyond the guarded count gives BAD_ARG. -/
theorem test_lock : (after (.lockGranule (args 155 0)) running).guard.locks.getLsbD 155 = true ∧
    (after (.lockGranule (args 156 0)) running).live.result = 1 := by decide +kernel

/-- R174: outside RUN a command gives NOT_RUNNING. -/
theorem test_not_running : (after (.lockGranule (args 0 0)) State.reset).live.result = 2 := by decide +kernel

/-- R175: a pending bit written as 1 is cleared. -/
theorem test_attention_clear :
    (after (.attentionPendingWrite (beat true 0xFFF020 3 0x0801)) { running with live := { Live.init with pendingAtt := 0x803 } }).live.pendingAtt
      = 0x802#16 := by decide +kernel

/-- R170: an erased store halts the part with fault code 1. -/
theorem test_halt : (after (.configurationRead []) State.reset).mode = .halted ∧
    (after (.configurationRead []) State.reset).configFault = 1 := by decide +kernel

/-- R146, R130: a READY node with a POLL mark is polled on end A and waits. -/
theorem test_dispatch :
    let s := after (.endDispatch 0 .a) (dispatching [(1, .poll)] [] none)
    ((s.loop 0).node 1).state = .waiting ∧ (s.loop 0).order = [] ∧ ((s.loop 0).endA.map (fun f => f.frame)) = some (mkFrame 1 16 []) := by
  decide +kernel

/-- R131: a POLL reply of a BAY node goes to the Occupancy Unit, and Next Sequence advances. -/
theorem test_reply :
    let s := after (.frameReceived 0 .a (mkFrame 129 16 [0, 1, 0, 0, 0, 2, 0, 0, 0]))
      (waiting .closed { node .bay .waiting with out := some poll } (.request 1))
    ((s.loop 0).node 1).state = .ready ∧ ((s.loop 0).node 1).seq = 1 ∧
      s.chan = [{ src := .controller 0, dst := .occupancy, body := .bayPoll 1 1 0 2 }] := by decide +kernel

/-- R132: the fourth timeout takes the node to FAILED. -/
theorem test_fourth_timeout :
    ((after (.replyTimeout 0 .a) (waiting .broken { node .bay .waiting with out := some poll, retry := 3 } (.request 1))).loop 0
      |>.node 1).state = .failed := by decide +kernel

/-- R137: the last ECHO of a discovery that no node answers leaves the loop DEAD and its node FAILED, cause UNREACHED. -/
theorem test_discovery_ends :
    let s := after (.discoveryEchoTimeout 0) (onLoop (discovering (node .bay .ready)))
    (s.loop 0).state = .dead ∧ ((s.loop 0).node 1).state = .failed ∧ ((s.loop 0).node 1).cause = .unreached ∧
      s.chan = [{ src := .controller 0, dst := .occupancy, body := .nodeNotice 1 .ready .failed }] := by decide +kernel

/-- R27, R29: the second poll of a new value is accepted. -/
theorem test_bay_poll : ((after (.bayPollReply 0 1 0x8000 0 0) (withBay .free (some .occupied) 1)).occ.bay 0).state = .occupied := by
  decide +kernel

/-- R40: a reply taken before the hand-over of a commit that moves the bay finds it on its old input; the commit taken first
moves the input. -/
theorem test_reply_before_commit :
    let r := { BayRec.init with node := 1, input := 15, enabled := true }
    let s := withBay .free (some .occupied) 1
    let s := { s with chan := s.chan ++ [{ src := .capture, dst := .occupancy, body := .commit 0 (.bay r) (.bay { r with input := 3 }) }] }
    let reply := Instr.bayPollReply 0 1 0x8000 0 0
    ((after reply s).occ.bay 0).arrivals = 1 ∧ ((after (.bayCommit 0) (after reply s)).occ.bay 0).state = .unknown ∧
      ((after reply (after (.bayCommit 0) s)).occ.bay 0).arrivals = 0 ∧
      (after (.bayCommit 0) s).occ.inputs = [(inputKey 0 1 3, some 0)] := by decide +kernel

/-- R38, R42: a commit that moves a FREE bay to another zone loses it at the old and gains it at the new, each with its count. -/
theorem test_bay_zone_changed :
    let s := pair .occupancy (.bay bayOn) (.bay { bayOn with zone := 1 })
    let s := { s with occ := { (withBay .free none 0).occ with zones := [(0, { OccZone.init with general := 1, enabled := 1 })] } }
    (after (.bayCommit 0) s).chan.map (fun m => m.body) = [.freeLost 0 0 0, .freeGained 1 0 1] := by decide +kernel

/-- R58: a SHOW built before the hand-over of its sign's commit carries the content of the record in force. -/
theorem test_show_before_commit :
    (buildWork { running with guid := signOne } 0 0 1 .sign .show).2 = showBytes (List.replicate 4 Shown.blank) := by decide +kernel

/-- R22: the disabled ZONE records take the image's thresholds at every unit that holds them. -/
theorem test_zone_defaults :
    let s := running.zoneDefaults { ZoneRec.init with co1 := 30 }
    (s.air.zone 15).inForce.co1 = 30 ∧ (s.guid.zone 15).inForce.co1 = 30 ∧
      (Tab.get ZoneRec.init s.term.zones 15).co1 = 30 ∧ (Tab.get ZoneRec.init s.capture.applied.zone 15).co1 = 30 := by
  decide +kernel

/-- R148, R165: Producer, the two bursts of a slot, and then no fetch is in progress; each is one command. -/
theorem test_fetch_bursts :
    let s := after .fetchAttempt (fetching .idle 1 pollSlot)
    let t := after .fetchAttempt s
    let u := after .fetchAttempt t
    s.ring.fetching = .slot 1 ∧ t.ring.queue 0 = [] ∧ u.ring.fetching = .idle ∧ (u.ring.queue 0).length = 1 ∧
      u.ring.fetch = 1 ∧ u.fetchWaits = false := by decide +kernel

/-- R173: an incrementing live burst that begins at FFFFFCh goes on at FFFFE0h and reads no memory. -/
theorem test_live_wrap :
    let s := after (.liveSnapshot { beat false 0xFFFFFC 15 0 with len := .two }) { running with mem := [(0, 7)] }
    s.live.snapshot.isSome = true ∧ after (.plainBeat (pastEnd false)) s = s ∧
      (after (.liveSnapshot (pastEnd false)) s).port.readData = 0 ∧ s.liveOffset (pastEnd false) = 0xFE0 := by decide +kernel

/-- R47, R48: an entry makes a hold in the preferred zone and raises no route of 255. -/
theorem test_entry :
    let s := after (.entryEvent 0) (guided .terminal (.entry 0))
    s.guid.holds.map (fun h => h.zone) = [0, 0] ∧ (s.guid.zone 0).gstate = .full ∧ (s.guid.gate 0).full = true := by
  decide +kernel

/-- R53: a loss of GENERAL bays ends the newest hold; the zone is full and so is its gate. -/
theorem test_free_lost :
    let s := guided .occupancy (.freeLost 0 0 1)
    let s := { s with guid := { s.guid with zones := [(0, { openZone with holds := 2, general := 3 })],
                                            holds := [oneHold, { oneHold with id := 1, route := [5] }] } }
    (after (.freeLost 0 0 1) s).guid.holds = [oneHold] ∧
      (after (.freeLost 0 0 1) s).chan.map (fun m => m.body) = [.routeLowered 5, .gateFull 0 true] := by decide +kernel

/-- R51: an arrival ends the oldest hold and lowers its route. -/
theorem test_arrival :
    (after (.occupiedAccepted 0) (guided .occupancy (.occupiedAccepted 0))).chan.map (fun m => m.body) = [.routeLowered 63] := by
  decide +kernel

/-- R68: with the stage notice first the channel stays at 100 until the override notice; both orders end at its idle level. -/
theorem test_either_order :
    let s := after (.stageNotice .lighting 0 1) clearingEnds
    let t := after (.overrideNotice .lighting .normal) clearingEnds
    (s.light.chan 0).level = 100 ∧ (t.light.chan 0).level = 100 ∧
      ((after (.overrideNotice .lighting .normal) s).light.chan 0).level = 10 ∧
      ((after (.stageNotice .lighting 0 1) t).light.chan 0).level = 10 := by decide +kernel

/-- R110: a fan that the map names before its commit is taken faults with its node, whose OUTPUT is marked. -/
theorem test_node_failed_before_commit :
    let s := after (.nodeNotice 0 1 .ready .failed) (mapped (noticing .fan .fan .ready .failed))
    (s.fan.fan 0).state = .fault ∧ (s.fan.fan 0).inForce.enabled = false ∧ (s.loop 0).order = [(1, .output)] := by decide +kernel

/-- R152: the first step of a sweep writes ACTIVE, a later one writes nothing. -/
theorem test_sweep_steps :
    let s (k : Nat) := after (.endDispatch 0 .a) (dispatching [] [sweepEntry k] none)
    ((s 0).ring.slot 0).status = 2 ∧ (s 0).reflect.list = [.slot 0] ∧ ((s 1).ring.slot 0).status = 0 ∧ (s 1).reflect.list = [] := by
  decide +kernel

/-- R91: smoke sets the hard locks and the OVERRIDE bit. -/
theorem test_smoke :
    let s := after .smokeActive (told .terminal .air (.smoke true))
    s.air.override = .active ∧ s.guard.hardZone = true ∧ s.live.pendingAtt.getLsbD 4 = true := by decide +kernel

/-- Table 5.3: the end of smoke begins the purge, and smoke during the purge ends it, each with its four notices. -/
theorem test_smoke_passages :
    let s := after .smokeInactive (overridden .active true false)
    let t := after .smokeActive (overridden .clearing false true)
    s.air.override = .clearing ∧ s.air.purgeTimer = some 60000 ∧ (s.air.zone 0).stage = 4 ∧ t.air.override = .active ∧
      t.air.purgeTimer = none ∧ t.chan.length = 4 := by decide +kernel

/-- R59, R129: an internal SHOW answered NODE_BUSY completes nothing and is marked again. -/
theorem test_busy_show :
    let L := { loopOne .broken { node .sign .waiting with out := some (asking 4 (.mark .show)) } with
      endA := some { flight (.request 1) with frame := (asking 4 (.mark .show)).frame } }
    let s := after (.frameReceived 0 .a (mkFrame 129 64 [4])) (onLoop L)
    s.chan = [] ∧ (s.loop 0).order = [(1, .show)] ∧ ((s.loop 0).node 1).busy = some 1 := by decide +kernel

/-- R165, R159: a beat that stands on the hold line completes right after the part's grant, whatever is locked meanwhile. -/
theorem test_hold_line :
    let s := after (.tableWriteBeat (beat true 0x0E04 1 9)) counted
    let t := after .reflectWrite { s with guard := { Guard.init with locks := ~~~0 } }
    s.port.wait.isSome = true ∧ s.mem = [] ∧ t.port.wait = none ∧ Memory.read t.mem 0x0E04 = 9 ∧ t.live.dropped = 0 ∧
      t.port.counter = 0 := by decide +kernel

/-- R164, R165: a read that stands on the hold line follows the part's grant and finds its record current. -/
theorem test_standing_read :
    let s := standing { fetching (.slot 1) 1 pollSlot with reflect := (writing false).reflect } (.read (some (.record .bay 0)))
    let t := after .fetchAttempt s
    t.ring.fetching = .rest 1 (Memory.readAll s.mem 0x9C40 16) ∧ t.port.wait = none ∧ t.reflect.current = none ∧
      Memory.read t.mem 0x0E09 = 2 := by decide +kernel

/-- R165, R161: while a commit waits for its read-back no fetch read is granted, and the Reflect Engine writes. -/
theorem test_held_commit :
    let s := { fetching (.slot 1) 1 pollSlot with port := { Port.init with commit := some (.bay, 0) } }
    after .fetchAttempt s = s ∧
      (after .reflectWrite { counted with port := { Port.init with commit := some (.bay, 0) } }).reflect.current.isSome = false := by
  decide +kernel

/-- R36: a BAY node that has failed and come back: its OUTPUT waits until the loss is taken, and is then built to rewrite all
sixteen lamps. -/
theorem test_lamp_waits :
    let s := { onLoop { loopOne .closed (node .bay .ready) with order := [(1, .output)] } with
      occ := { Occ.init with nodes := [(nodeKey 0 1, { usable := true, reported := some 0 })] },
      chan := [{ src := .controller 0, dst := .occupancy, body := .nodeNotice 1 .waiting .failed }] }
    let t := after (.nodeNotice 0 1 .waiting .failed) s
    after (.endDispatch 0 .a) s = s ∧
      ((after (.endDispatch 0 .a) t).loop 0).endA.map (fun f => framePayload f.frame) =
        some [0, 0, 0xFF, 0xFF, 0, 0, 0, 0, 0, 0, 0, 0] := by decide +kernel

/-- R139: the start test that LOOP_RESET puts off is made once the abandoned frame has timed out. -/
theorem test_abandoned_start :
    let s := after (.loopReset (args 0 0)) (onLoop { loopOne .broken (node .bay .ready) with endA := some (flight (.request 1)) })
    let t := after (.abandonedFrameTimeout 0 .a) s
    (s.loop 0).endA.map (fun f => f.work) = some .abandoned ∧ (t.loop 0).endA.map (fun f => f.work) = some .startTest ∧
      (t.loop 0).both = true := by decide +kernel

/-- R92, R44: the notice of CLEARING carries the Applied Stages to Guidance, and no stage notice goes there beside it. -/
theorem test_clearing_notices :
    ((after .smokeInactive (overridden .active true false)).chan.filter (fun m => decide (m.dst = .guidance))).map (fun m => m.body) =
      [.override .clearing (4 :: List.replicate 15 0)] := by decide +kernel

/-- R105: a start timer that runs out faults the fan. -/
theorem test_start_timeout :
    ((after (.startTimerExpiry 0) (withFan0 { FanU.init with state := .starting, startTimer := some 0 })).fan.fan 0).cause = .startTimeout := by
  decide +kernel

/-- R58: a SHOW mark waits for the refresh timer, and goes when it has run out. -/
theorem test_show_waits :
    let s := showing (some 0) []
    after (.endDispatch 0 .a) s = s ∧
      ((after (.endDispatch 0 .a) (after (.refreshTimerExpiry 0) s)).loop 0 |>.node 1).state = .waiting := by decide +kernel

/-- R136: the second frame of a pair goes on B, and the third again on A. -/
theorem test_pair :
    let L := { loopOne .dead { node .bay .joining with out := some poll } with both := true, endA := some (flight (.request 1)) }
    let s := after (.replyTimeout 0 .a) (onLoop L)
    let t := after (.replyTimeout 0 .b) { s with loops := [(0, { s.loop 0 with endB := (s.loop 0).endB.map (fun f => { f with timer := some 0 }) })] }
    (s.loop 0).endA = none ∧ (s.loop 0).endB.isSome = true ∧ ((s.loop 0).node 1).retry = 0 ∧
      (t.loop 0).endA.isSome = true ∧ (t.loop 0).endB = none ∧ ((t.loop 0).node 1).retry = 1 ∧ (t.loop 0).timeouts = 2 := by
  decide +kernel

/-- R95: a zone enabled during CLEARING stands at stage 4; disabled, at 0. -/
theorem test_zone_enabled :
    let z := { ZoneRec.init with enabled := true }
    let s := after (.zoneCommitAir 0)
      { pair .air (.zone ZoneRec.init) (.zone z) with air := { Air.init with override := .clearing } }
    let t := after (.zoneCommitAir 0) { pair .air (.zone z) (.zone ZoneRec.init) with air := s.air }
    (s.air.zone 0).stage = 4 ∧ s.chan.length = 4 ∧ (t.air.zone 0).stage = 0 ∧ t.chan.length = 4 := by decide +kernel

/-- R63: a gate with a queue that passes to another zone withdraws it at the old and raises it at the new. -/
theorem test_gate_zone_changed :
    let new := { openGate.inForce with zone := 1 }
    let s := { pair .guidance (.gate openGate.inForce) (.gate new) with
      guid := { Guid.init with gates := [(0, { openGate with queue := true })] } }
    ((after (.gateCommit 0) s).chan.map (fun m => m.body)).take 2 = [.queueWithdrawn 0, .queueRaised 1] := by decide +kernel

/-- R66, R70: a presence notice raises a level and marks OUTPUT on its node. -/
theorem test_presence_marks :
    let c := { ChannelRec.init with node := 1, presence := 60, hold := 10, enabled := true }
    let s := mapped { told .occupancy .lighting (.presence 0) with
      light := { Light.init with chans := [(0, { LChan.init with inForce := c })], nodes := [(nodeKey 0 1, { usable := true, lastSet := some [0, 0, 0, 0] })] } }
    ((after (.presence 0) s).light.chan 0).level = 60 ∧ ((after (.presence 0) s).loop 0).order = [(1, .output)] := by decide +kernel

/-- R65: a route count lights a channel at its route level. -/
theorem test_route_level :
    let s := { told .guidance .lighting (.routeRaised 0) with
      light := { Light.init with chans := [(0, { LChan.init with inForce := { ChannelRec.init with route := 80, enabled := true } })] } }
    ((after (.routeCountRaised 0) s).light.chan 0).level = 80 := by decide +kernel

/-- R119: a debounced gate input makes an entry event. -/
theorem test_gate_in :
    let s := { running with term := { Term.init 1 with terms := [(0, { TermU.init with func := some (.gateIn 3, 0), timer := some 0 })] } }
    (after (.debounceExpiry 0) s).chan = [{ src := .terminal, dst := .guidance, body := .entry 3 }] := by decide +kernel

/-- R169: the Section Time after a thousand ticks. -/
theorem test_time : (after .clockTick { running with clock := 999 }).time = 1 := by decide +kernel

end Sys2Proof.Tests
end

section
/-! SUPPORT. How a hold ends (R50 to R52): the removal, the evaluation of its zone, and the end of the event, which sends to
the Terminal Block alone. -/

namespace Sys2Proof.Machine

/-! ### Effects that send to the Terminal Block alone -/

/-- The effects that `b` has more than `a` send to the Terminal Block alone. -/
def Acc.tellsTerminal {U : Type} (a b : Acc U) : Prop :=
  ∃ es, b.out = a.out ++ es ∧ ∀ m ∈ es.flatMap Eff.msg, m.dst = .terminal

section TellsTerminal

variable {U α : Type}

theorem Acc.tellsTerminal_refl (a : Acc U) : a.tellsTerminal a := ⟨[], by simp⟩

theorem Acc.tellsTerminal_trans {a b c : Acc U} (h : a.tellsTerminal b) (k : b.tellsTerminal c) : a.tellsTerminal c := by
  obtain ⟨es, hes, hm⟩ := h
  obtain ⟨fs, hfs, km⟩ := k
  refine ⟨es ++ fs, by rw [hfs, hes, List.append_assoc], fun m hmem => ?_⟩
  rw [List.flatMap_append, List.mem_append] at hmem
  exact hmem.elim (hm m) (km m)

theorem Acc.tellsTerminal_put (a : Acc U) (u : U) : a.tellsTerminal (a.put u) := ⟨[], by simp⟩

theorem Acc.tellsTerminal_say (a : Acc U) {e : Eff} (h : ∀ m ∈ e.msg, m.dst = .terminal) : a.tellsTerminal (a.say e) :=
  ⟨[e], rfl, by simpa using h⟩

theorem Acc.tellsTerminal_each (a : Acc U) (xs : List α) (f : Acc U → α → Acc U) (h : ∀ a x, Acc.tellsTerminal a (f a x)) :
    a.tellsTerminal (a.each xs f) :=
  Acc.each_induct a.tellsTerminal xs f a a.tellsTerminal_refl (fun b x _ hb => Acc.tellsTerminal_trans hb (h b x))

/-- A new state of the unit and a record placed on the Reflect List send nothing. -/
theorem Acc.tellsTerminal_putReflect (a : Acc U) (u : U) (r : RecName) : a.tellsTerminal ((a.put u).say (.reflect r)) :=
  Acc.tellsTerminal_trans (a.tellsTerminal_put u) ((a.put u).tellsTerminal_say (by simp [Eff.msg]))

end TellsTerminal

theorem evalGate_tellsTerminal (a : GuidAcc) (g : Nat) : Acc.tellsTerminal a (evalGate a g) := by
  unfold evalGate
  dsimp only
  split
  · exact Acc.tellsTerminal_refl a
  · exact Acc.tellsTerminal_trans (Acc.tellsTerminal_putReflect a _ _)
      (Acc.tellsTerminal_say _ (by simp [guidSend, Eff.msg]))

theorem evalStatus_tellsTerminal (a : GuidAcc) (i : Nat) : Acc.tellsTerminal a (evalStatus a i) := by
  unfold evalStatus
  dsimp only
  split
  · exact Acc.tellsTerminal_refl a
  · exact Acc.tellsTerminal_putReflect a _ _

theorem showTest_tellsTerminal (a : GuidAcc) (i : Nat) : Acc.tellsTerminal a (showTest a i) := by
  unfold showTest Acc.sayIf
  dsimp only
  split
  · exact Acc.tellsTerminal_say a (by simp [Eff.msg])
  · exact Acc.tellsTerminal_refl a

/-- The end of an event sends FULL notices to the Terminal Block and nothing else (R46). -/
theorem guidEnd_tellsTerminal (a : GuidAcc) : Acc.tellsTerminal a (guidEnd a) :=
  Acc.tellsTerminal_trans (Acc.tellsTerminal_each a _ _ evalGate_tellsTerminal)
    (Acc.tellsTerminal_trans (Acc.tellsTerminal_each _ _ _ evalStatus_tellsTerminal)
      (Acc.tellsTerminal_each _ _ _ showTest_tellsTerminal))

/-! ### The Guidance Unit's event put into the part -/

theorem State.withGuid_holds (s : State) (a : GuidAcc) : (s.withGuid a).guid.holds = a.u.holds := by
  obtain ⟨_, hholds, _⟩ := (s.withGuid_kept a).1
  exact hholds

theorem State.withGuid_zone (s : State) (a : GuidAcc) : (s.withGuid a).guid.zone = a.u.zone := by
  obtain ⟨hzones, _⟩ := (s.withGuid_kept a).1
  funext z
  rw [Guid.zone, hzones, Guid.zone]

theorem State.withGuid_listed (s : State) {a : GuidAcc} {r : RecName} (h : Eff.reflect r ∈ a.out) :
    r ∈ (s.withGuid a).reflect.list := by
  have hmem : .reflect r ∈ (guidEnd a).out := Acc.mem_of_grows (guidEnd_kept a).2 h
  unfold State.withGuid
  dsimp only
  exact State.emit_reflect _ _ _ hmem

/-- The event's own messages join the channel in their order; what follows them goes to the Terminal Block. -/
theorem State.withGuid_chan (s : State) (a : GuidAcc) :
    ∃ ms, (s.withGuid a).chan = s.chan ++ a.out.flatMap Eff.msg ++ ms ∧ ∀ m ∈ ms, m.dst = .terminal := by
  obtain ⟨es, hes, hm⟩ := guidEnd_tellsTerminal a
  refine ⟨es.flatMap Eff.msg, ?_, hm⟩
  unfold State.withGuid
  dsimp only
  rw [State.emit_chan, hes, List.flatMap_append, List.append_assoc]

/-! ### The end of one hold (R50) -/

/-- A zone is to be CLOSED exactly when one of its reasons is set; its counts do not matter (R45). -/
theorem GZone.state_eq_closed_iff (x : GZone) : x.state = .closed ↔ x.reasons.any = true := by
  unfold GZone.state
  split
  · simp [*]
  · split <;> simp [*]

/-- The evaluation of a zone that does not become CLOSED by it ends no hold and sends nothing. -/
theorem evalZone_not_closing {a : GuidAcc} {z : Nat} (h : (a.u.zone z).state = .closed → (a.u.zone z).gstate = .closed) :
    (evalZone a z).u.holds = a.u.holds ∧ ((evalZone a z).u.zone z).holds = (a.u.zone z).holds ∧
      Acc.tellsTerminal a (evalZone a z) := by
  by_cases hsame : (a.u.zone z).state = (a.u.zone z).gstate
  · rw [evalZone_same hsame.symm]
    exact ⟨rfl, rfl, Acc.tellsTerminal_refl a⟩
  · have hopen : (a.u.zone z).state ≠ .closed := fun hc => hsame (hc.trans (h hc).symm)
    rw [evalZone_open hopen, if_neg hsame]
    exact ⟨rfl, by simp, Acc.tellsTerminal_putReflect a _ _⟩

/-- The zone of a removed hold keeps its reasons, so its evaluation does not close it. -/
theorem removeHold_not_closing {a : GuidAcc} {k : Nat} {h : Hold} (hk : a.u.holds[k]? = some h)
    (hg : (a.u.zone h.zone).gstate = (a.u.zone h.zone).state)
    (hc : ((removeHold a k).u.zone h.zone).state = .closed) : ((removeHold a k).u.zone h.zone).gstate = .closed := by
  rw [(removeHold_eq hk).1] at hc ⊢
  rw [Guid.zone_setZone, if_pos rfl] at hc ⊢
  rw [GZone.state_eq_closed_iff] at hc
  exact hg.trans ((GZone.state_eq_closed_iff _).mpr hc)

theorem endHold_eq {a : GuidAcc} {k : Nat} {h : Hold} (hk : a.u.holds[k]? = some h) :
    endHold a k = evalZone (removeHold a k) h.zone := by
  unfold endHold
  rw [hk]

/-- R50: what the end of a hold does to the unit and what it says. -/
theorem endHold_ends {a : GuidAcc} {k : Nat} {h : Hold} (hk : a.u.holds[k]? = some h)
    (hg : (a.u.zone h.zone).gstate = (a.u.zone h.zone).state) :
    (endHold a k).u.holds = a.u.holds.eraseIdx k ∧
      ((endHold a k).u.zone h.zone).holds = (a.u.zone h.zone).holds - 1 ∧
      ∃ es, (endHold a k).out = a.out ++ .reflect (.record .zone h.zone) ::
          h.route.map (fun ch => guidSend .lighting (.routeLowered ch)) ++ es ∧
        ∀ m ∈ es.flatMap Eff.msg, m.dst = .terminal := by
  obtain ⟨hholds, hzone, es, hout, hes⟩ := evalZone_not_closing (removeHold_not_closing hk hg)
  obtain ⟨hu, hsaid⟩ := removeHold_eq hk
  rw [endHold_eq hk]
  exact ⟨by rw [hholds, hu]; rfl, by rw [hzone, hu]; simp, es, by rw [hout, hsaid], hes⟩

/-- The messages of the route counts that a hold's end lowers, in Route order. -/
theorem flatMap_msg_routeLowered (route : List Nat) :
    (route.map (fun ch => guidSend .lighting (.routeLowered ch))).flatMap Eff.msg =
      route.map (fun ch => { src := .guidance, dst := .lighting, body := .routeLowered ch }) := by
  induction route with
  | nil => rfl
  | cons ch route ih => rw [List.map_cons, List.flatMap_cons, ih]; rfl

/-- The part `t` after the hold `h` at place `k` of the unit `u` has ended, with `rest` on the channel before (R50): the form
that both parts of HoldEnds ask for. -/
def Guid.holdEnded (u : Guid) (k : Nat) (h : Hold) (rest : List Msg) (t : State) : Prop :=
  t.guid.holds = u.holds.eraseIdx k ∧ (t.guid.zone h.zone).holds = (u.zone h.zone).holds - 1 ∧
    .record .zone h.zone ∈ t.reflect.list ∧ ∃ ms, t.chan = rest ++
      h.route.map (fun ch => { src := .guidance, dst := .lighting, body := .routeLowered ch }) ++ ms ∧
      ∀ m ∈ ms, m.dst = .terminal

/-- An event that ends one hold and does nothing else, put into the part. -/
theorem State.withGuid_endHold {s : State} {k : Nat} {h : Hold} (hk : s.guid.holds[k]? = some h)
    (hg : (s.guid.zone h.zone).gstate = (s.guid.zone h.zone).state) :
    s.guid.holdEnded k h s.chan (s.withGuid (endHold (Acc.start s.guid) k)) := by
  obtain ⟨hholds, hzone, es, hout, hes⟩ := endHold_ends (a := Acc.start s.guid) hk hg
  obtain ⟨ms, hchan, hms⟩ := s.withGuid_chan (endHold (Acc.start s.guid) k)
  refine ⟨(s.withGuid_holds _).trans hholds, ?_, s.withGuid_listed (by simp [hout]), es.flatMap Eff.msg ++ ms, ?_, ?_⟩
  · rw [s.withGuid_zone]
    exact hzone
  · have hsaid : (endHold (Acc.start s.guid) k).out.flatMap Eff.msg =
        h.route.map (fun ch => { src := .guidance, dst := .lighting, body := .routeLowered ch }) ++ es.flatMap Eff.msg := by
      rw [hout, Acc.start_out, List.nil_append, List.flatMap_append, List.flatMap_cons, flatMap_msg_routeLowered]
      rfl
    rw [hchan, hsaid]
    simp only [List.append_assoc]
  · intro m hm
    exact (List.mem_append.mp hm).elim (hes m) (hms m)

/-! ### The two events (R51, R52) -/

theorem guidArrived_none {s : State} {z : Nat} (h : oldestOf s.guid.holds z = none) :
    guidArrived s z = s.withGuid (Acc.start s.guid) := by
  unfold guidArrived
  rw [h]

theorem guidArrived_some {s : State} {z k : Nat} (h : oldestOf s.guid.holds z = some k) :
    guidArrived s z = s.withGuid (endHold (Acc.start s.guid) k) := by
  unfold guidArrived
  rw [h]

theorem exec_occupiedAccepted_next {s : State} {z : Nat} (h : s.next? .occupancy .guidance = some (.occupiedAccepted z)) :
    exec (.occupiedAccepted z) s = .next (guidArrived (s.taken .occupancy .guidance) z) :=
  congrArg goOn (State.take_next (fun s => guidArrived s z) h)

theorem holdDue_of_expired {s : State} {k : Nat} {h : Hold} (hk : s.guid.holds[k]? = some h) (he : h.expiry ≤ s.secs) :
    holdDue s k = true := by
  unfold holdDue
  rw [hk]
  exact decide_eq_true he

theorem exec_holdExpiry_due {s : State} {k : Nat} (h : holdDue s k = true) :
    exec (.holdExpiry k) s = .next (s.withGuid (endHold (Acc.start s.guid) k)) := by
  show goOn (s.when_ (holdDue s k) (fun s => guidExpire s k)) = _
  rw [h]
  rfl

/-- Settles O41: an acceptance of OCCUPIED and an expiry are each the end of one hold, that of its zone's oldest or of the one
at its place. -/
theorem holdEnds : Obligations.HoldEnds := by
  refine ⟨fun s z hnone hnext => ?_, fun s k h hk hg => ⟨fun hold hnext => ?_, fun he => ?_⟩⟩
  · refine ⟨_, exec_occupiedAccepted_next hnext, ?_⟩
    rw [guidArrived_none (s := s.taken .occupancy .guidance) hnone]
    exact State.withGuid_holds _ _
  · refine ⟨_, exec_occupiedAccepted_next hnext, ?_⟩
    rw [guidArrived_some (s := s.taken .occupancy .guidance) hold]
    exact State.withGuid_endHold (s := s.taken .occupancy .guidance) hk hg
  · exact ⟨_, exec_holdExpiry_due (holdDue_of_expired hk he), State.withGuid_endHold hk hg⟩

end Sys2Proof.Machine
end

section
/-! SUPPORT. What the Air Unit's work can do: which of its fields each piece of work reaches, and what the unit's event leaves
in the part. -/

namespace Sys2Proof.Machine

/-! ### Work on the zones alone -/

/-- `v` is `u` but for its zones. -/
def Air.keepsRest (u v : Air) : Prop := v = { u with zones := v.zones }

section KeepsRest

variable {u v : Air}

theorem Air.keepsRest_refl (u : Air) : u.keepsRest u := rfl

theorem Air.keepsRest_trans {w : Air} (h : u.keepsRest v) (k : v.keepsRest w) : u.keepsRest w := by
  unfold Air.keepsRest at *
  rw [k, h]

theorem Air.keepsRest_setZone (u : Air) (z : Nat) (x : AZone) : u.keepsRest (u.setZone z x) := rfl

theorem Air.keepsRest.head (h : u.keepsRest v) : v.head = u.head := by rw [h]; rfl

theorem Air.keepsRest.smoke (h : u.keepsRest v) : v.smoke = u.smoke := by rw [h]

theorem Air.keepsRest.override (h : u.keepsRest v) : v.override = u.override := by rw [h]

theorem Air.keepsRest.purgeTimer (h : u.keepsRest v) : v.purgeTimer = u.purgeTimer := by rw [h]

theorem Air.keepsRest.alarm (h : u.keepsRest v) : v.alarm = u.alarm := by rw [h]

end KeepsRest

/-- The work from `a` to `b` reaches the unit's zones alone, and only adds effects. -/
def Acc.zonesOnly (a b : AirAcc) : Prop := a.u.keepsRest b.u ∧ Acc.grows a b

section ZonesOnly

variable {a b c : AirAcc}

theorem Acc.zonesOnly_refl (a : AirAcc) : Acc.zonesOnly a a := ⟨Air.keepsRest_refl _, Acc.grows_refl a⟩

theorem Acc.zonesOnly_trans (h : Acc.zonesOnly a b) (k : Acc.zonesOnly b c) : Acc.zonesOnly a c :=
  ⟨Air.keepsRest_trans h.1 k.1, Acc.grows_trans h.2 k.2⟩

theorem Acc.zonesOnly_setZone (a : AirAcc) (z : Nat) (x : AZone) : Acc.zonesOnly a (a.put (a.u.setZone z x)) :=
  ⟨Air.keepsRest_setZone _ z x, Acc.grows_put a _⟩

theorem Acc.zonesOnly_say (h : Acc.zonesOnly a b) (e : Eff) : Acc.zonesOnly a (b.say e) :=
  ⟨h.1, Acc.grows_trans h.2 (Acc.grows_say b e)⟩

theorem Acc.zonesOnly_sayIf (h : Acc.zonesOnly a b) (p : Bool) (e : Eff) : Acc.zonesOnly a (b.sayIf p e) := by
  refine ⟨?_, Acc.grows_trans h.2 (Acc.grows_sayIf b p e)⟩
  rw [Acc.sayIf_u]
  exact h.1

theorem Acc.zonesOnly_each (a : AirAcc) (zs : List Nat) (f : AirAcc → Nat → AirAcc)
    (h : ∀ a z, Acc.zonesOnly a (f a z)) : Acc.zonesOnly a (a.each zs f) :=
  Acc.each_induct (Acc.zonesOnly a) zs f a (Acc.zonesOnly_refl a) (fun b z _ hb => Acc.zonesOnly_trans hb (h b z))

end ZonesOnly

theorem setStage_zonesOnly (s : State) (a : AirAcc) (z k : Nat) (g : Bool) : Acc.zonesOnly a (setStage s a z k g) := by
  unfold setStage
  dsimp only
  split
  · exact Acc.zonesOnly_refl a
  · have hput := Acc.zonesOnly_setZone a z { a.u.zone z with stage := k, since := s.time }
    exact Acc.zonesOnly_sayIf (Acc.zonesOnly_say (Acc.zonesOnly_say (Acc.zonesOnly_say
      (Acc.zonesOnly_say (Acc.zonesOnly_say hput _) _) _) _) _) _ _

theorem stageRule_zonesOnly (s : State) (a : AirAcc) (z : Nat) : Acc.zonesOnly a (stageRule s a z) := by
  unfold stageRule
  dsimp only
  split
  · exact Acc.zonesOnly_refl a
  split
  · exact Acc.zonesOnly_trans (Acc.zonesOnly_setZone a z _) (setStage_zonesOnly _ _ _ _ _)
  split
  · split
    · exact Acc.zonesOnly_setZone a z _
    · exact Acc.zonesOnly_refl a
  · exact Acc.zonesOnly_setZone a z _

theorem putZone_zonesOnly (a : AirAcc) (z : Nat) (y : AZone) : Acc.zonesOnly a (putZone a z y) :=
  Acc.zonesOnly_sayIf (Acc.zonesOnly_sayIf (Acc.zonesOnly_setZone a z y) _ _) _ _

theorem airZone_zonesOnly (s : State) (a : AirAcc) (z : Nat) : Acc.zonesOnly a (airZone s a z) := by
  unfold airZone
  dsimp only
  split
  · exact Acc.zonesOnly_trans (putZone_zonesOnly a z _) (stageRule_zonesOnly s _ z)
  · exact Acc.zonesOnly_refl a

/-! ### The end of the unit's event (R89, R97) -/

/-- The notice of the Alarm condition, when it changes. -/
def alarmTold (old new : Bool) : List Body := if new = old then [] else [.alarm new]

theorem evalAlarm_u (a : AirAcc) : (evalAlarm a).u = { a.u with alarm := alarmOf a.u } := by
  unfold evalAlarm
  dsimp only
  split
  · rename_i h
    rw [h]
  · rfl

theorem evalAlarm_out (a : AirAcc) :
    (evalAlarm a).out = a.out ++ (alarmTold a.u.alarm (alarmOf a.u)).map (airSend .terminal) := by
  unfold evalAlarm alarmTold
  dsimp only
  split
  · simp
  · rfl

theorem State.withAir_u (s : State) (a : AirAcc) : (s.withAir a).air = { a.u with alarm := alarmOf a.u } :=
  (s.withAir_air a).trans (evalAlarm_u a)

theorem State.withAir_zone (s : State) (a : AirAcc) : (s.withAir a).air.zone = a.u.zone := by rw [State.withAir_u]; rfl

theorem State.withAir_head (s : State) (a : AirAcc) : (s.withAir a).air.head = a.u.head := by rw [State.withAir_u]; rfl

theorem State.withAir_smoke (s : State) (a : AirAcc) : (s.withAir a).air.smoke = a.u.smoke := by rw [State.withAir_u]

theorem State.withAir_override (s : State) (a : AirAcc) : (s.withAir a).air.override = a.u.override := by
  rw [State.withAir_u]

theorem State.withAir_purgeTimer (s : State) (a : AirAcc) : (s.withAir a).air.purgeTimer = a.u.purgeTimer := by
  rw [State.withAir_u]

theorem State.withAir_alarm (s : State) (a : AirAcc) : (s.withAir a).air.alarm = alarmOf a.u := by rw [State.withAir_u]

theorem evalAlarm_keepsOut {a : AirAcc} {e : Eff} (h : e ∈ a.out) : e ∈ (evalAlarm a).out := by
  rw [evalAlarm_out]
  exact List.mem_append_left _ h

theorem State.withAir_attends (s : State) {a : AirAcc} {b : Attn} (h : .attend b ∈ a.out) : (s.withAir a).attends b := by
  unfold State.withAir
  dsimp only
  exact State.emit_attend _ _ b (evalAlarm_keepsOut h)

theorem State.withAir_listed (s : State) {a : AirAcc} {r : RecName} (h : .reflect r ∈ a.out) :
    r ∈ (s.withAir a).reflect.list := by
  unfold State.withAir
  dsimp only
  exact State.emit_reflect _ _ r (evalAlarm_keepsOut h)

theorem State.withAir_chan (s : State) (a : AirAcc) : (s.withAir a).chan = s.chan ++ (evalAlarm a).out.flatMap Eff.msg := by
  unfold State.withAir
  dsimp only
  exact State.emit_chan _ _

end Sys2Proof.Machine
end

section
/-! SUPPORT. The Air Unit's poll of a gas head (R79): what the reply makes of the head, and that the evaluation of the zones
leaves the head so. -/

namespace Sys2Proof.Machine

/-! ### The head after a reply -/

section GasReply

variable (s : State) (h : Head) (co no2 : Nat) (flags : Byte)

theorem gasReply_fault : (gasReply s h co no2 flags).fault = flags.getLsbD 0 := by
  unfold gasReply
  dsimp only
  split <;> rfl

theorem gasReply_zeroing : (gasReply s h co no2 flags).zeroing = flags.getLsbD 1 := by
  unfold gasReply
  dsimp only
  split <;> rfl

theorem gasReply_zeroFailed : (gasReply s h co no2 flags).zeroFailed = flags.getLsbD 2 := by
  unfold gasReply
  dsimp only
  split <;> rfl

theorem gasReply_usable : (gasReply s h co no2 flags).usable = h.usable := by
  unfold gasReply
  dsimp only
  split <;> split <;> rfl

variable {s h co no2 flags}

/-- A zeroing that begins or ends leaves no sample: the reply that begins it has the flag set, the one that ends it is not a
valid sample. -/
theorem gasReply_of_zeroing_changed (hz : flags.getLsbD 1 ≠ h.zeroing) :
    (gasReply s h co no2 flags).ring = [] ∧ (gasReply s h co no2 flags).fresh = none := by
  unfold gasReply
  cases hf : flags.getLsbD 1 <;> cases hh : h.zeroing
  · exact absurd (hf.trans hh.symm) hz
  · simp
  · simp
  · exact absurd (hf.trans hh.symm) hz

theorem gasReply_of_flag_set (hz : flags.getLsbD 1 = h.zeroing)
    (hflag : (flags.getLsbD 0 || flags.getLsbD 1 || flags.getLsbD 2) = true) :
    (gasReply s h co no2 flags).ring = h.ring ∧ (gasReply s h co no2 flags).fresh = h.fresh := by
  simp only [Bool.or_eq_true] at hflag
  unfold gasReply
  rcases hflag with (h0 | h1) | h2
  · simp [h0, ← hz, -BitVec.getLsbD_eq_getElem]
  · simp [h1, ← hz, -BitVec.getLsbD_eq_getElem]
  · simp [h2, ← hz, -BitVec.getLsbD_eq_getElem]

/-- Before a sample joins, the ring keeps its last seven. -/
theorem ring_room (xs : List (Nat × Nat)) :
    (if xs.length < 8 then xs else xs.drop (xs.length - 7)) = xs.drop (xs.length - 7) := by
  split
  · rw [show xs.length - 7 = 0 by omega, List.drop_zero]
  · rfl

theorem gasReply_of_flags_clear (hz : flags.getLsbD 1 = h.zeroing)
    (hflag : (flags.getLsbD 0 || flags.getLsbD 1 || flags.getLsbD 2) = false) :
    (gasReply s h co no2 flags).ring = h.ring.drop (h.ring.length - 7) ++ [(co, no2)] ∧
      (gasReply s h co no2 flags).fresh = some (s.clock + 1000 * (3 * s.cfg.params.gasPoll)) := by
  simp only [Bool.or_eq_false_iff] at hflag
  obtain ⟨⟨h0, h1⟩, h2⟩ := hflag
  unfold gasReply
  simp [h0, h1, h2, ← hz, ring_room, State.inSecs, -BitVec.getLsbD_eq_getElem]

end GasReply

/-! ### The event of a head -/

theorem headEvent_head (s : State) (a : AirAcc) (l n : Nat) (h : Head) : (headEvent s a l n h).air.head l n = h := by
  unfold headEvent
  dsimp only
  obtain ⟨hrest, -⟩ := Acc.zonesOnly_each (a.put (a.u.setHead l n h)) (zonesOfHead (a.u.setHead l n h) l n) (airZone s)
    (airZone_zonesOnly s)
  rw [State.withAir_head, Acc.put_u, hrest.head]
  exact Air.head_setHead_same _ _ _ _

theorem headEvent_attends {s : State} {a : AirAcc} (l n : Nat) (h : Head) {b : Attn} (hb : .attend b ∈ a.out) :
    (headEvent s a l n h).attends b := by
  unfold headEvent
  dsimp only
  obtain ⟨-, hgrows⟩ := Acc.zonesOnly_each (a.put (a.u.setHead l n h)) (zonesOfHead (a.u.setHead l n h) l n) (airZone s)
    (airZone_zonesOnly s)
  exact State.withAir_attends s (Acc.mem_of_grows hgrows hb)

theorem airPoll_head (s : State) (l n co no2 : Nat) (flags : Byte) :
    (airPoll s l n co no2 flags).air.head l n = gasReply s (s.air.head l n) co no2 flags :=
  headEvent_head s _ l n _

theorem airPoll_attends {s : State} {l n co no2 : Nat} {flags : Byte} (hset : flags.getLsbD 2 = true)
    (hclear : (s.air.head l n).zeroFailed = false) : (airPoll s l n co no2 flags).attends .gasUnknown := by
  have hsaid : .attend .gasUnknown ∈
      ((Acc.start s.air).sayIf (flags.getLsbD 2 && !(s.air.head l n).zeroFailed) (.attend .gasUnknown)).out := by
    rw [hset, hclear]
    exact List.mem_singleton.mpr rfl
  unfold airPoll
  exact headEvent_attends l n _ hsaid

theorem exec_gasPollReply_next {s : State} {l : Fin 4} {n co no2 : Nat} {flags : Byte}
    (h : s.next? (.controller l) .air = some (.gasPoll n co no2 flags)) :
    exec (.gasPollReply l n co no2 flags) s = .next (airPoll (s.taken (.controller l) .air) l n co no2 flags) :=
  congrArg goOn (State.take_next (fun s => airPoll s l n co no2 flags) h)

/-- Settles O36: the head after the event is the one the reply makes of it (R79), since the evaluation of its zones reaches the
zones alone. -/
theorem gasPollTaken : Obligations.GasPollTaken := by
  intro s l n co no2 flags hnext h
  refine ⟨_, exec_gasPollReply_next hnext, ?_⟩
  dsimp only
  rw [airPoll_head]
  exact ⟨gasReply_fault _ _ _ _ _, gasReply_zeroing _ _ _ _ _, gasReply_zeroFailed _ _ _ _ _, gasReply_usable _ _ _ _ _,
    gasReply_of_zeroing_changed, gasReply_of_flag_set, gasReply_of_flags_clear,
    airPoll_attends (s := s.taken (.controller l) .air)⟩

end Sys2Proof.Machine
end

section
/-! SUPPORT. What the Air Unit's effects come to at the four units that it notifies and at the hard locks. -/

namespace Sys2Proof.Machine

/-! ### Hard locks (R91, R94) -/

/-- The hard locks that an effect sets or releases. -/
def Eff.locks : Eff → List Bool
  | .hardLocks on => [on]
  | .reflect _ | .send _ | .attend _ | .mark _ _ _ | .unmark _ _ _ => []

/-- The guard with its hard locks set or released. -/
def Guard.setHard (g : Guard) (on : Bool) : Guard := { g with hardZone := on, hardGroup := on, hardFan := on }

/-- Of all that an event does, its hard locks alone reach the guard. -/
theorem State.emit_guard_locks (s : State) (es : List Eff) :
    (s.emit es).guard = (es.flatMap Eff.locks).foldl Guard.setHard s.guard := by
  induction es generalizing s with
  | nil => rfl
  | cons e es ih =>
    rw [State.emit_cons, ih, List.flatMap_cons, List.foldl_append]
    cases e <;> rfl

/-! ### What each unit is told -/

/-- The bodies of the Air Unit's messages to unit `u`, in their order. -/
def bodiesTo (u : UnitId) (ms : List Msg) : List Body :=
  (ms.filter (fun m => decide (m.src = .air ∧ m.dst = u))).map (fun m => m.body)

theorem bodiesTo_append (u : UnitId) (ms ns : List Msg) : bodiesTo u (ms ++ ns) = bodiesTo u ms ++ bodiesTo u ns := by
  unfold bodiesTo
  rw [List.filter_append, List.map_append]

/-- What effects send to unit `u` for the Air Unit. -/
def saidTo (u : UnitId) (es : List Eff) : List Body := bodiesTo u (es.flatMap Eff.msg)

theorem saidTo_append (u : UnitId) (es fs : List Eff) : saidTo u (es ++ fs) = saidTo u es ++ saidTo u fs := by
  unfold saidTo
  rw [List.flatMap_append, bodiesTo_append]

/-- Effects of the Air Unit by what they come to: hard locks, what Guidance is told, and what Lighting, Fans and the Terminal
Block are each told. -/
structure Says (es : List Eff) (locks : List Bool) (guidance others : List Body) : Prop where
  locks : es.flatMap Eff.locks = locks
  guidance : saidTo .guidance es = guidance
  lighting : saidTo .lighting es = others
  fan : saidTo .fan es = others
  terminal : saidTo .terminal es = others

theorem Says.nil : Says [] [] [] [] := ⟨rfl, rfl, rfl, rfl, rfl⟩

theorem Says.append {es fs : List Eff} {ls ks : List Bool} {gs gs' os os' : List Body} (h : Says es ls gs os)
    (k : Says fs ks gs' os') : Says (es ++ fs) (ls ++ ks) (gs ++ gs') (os ++ os') where
  locks := by rw [List.flatMap_append, h.locks, k.locks]
  guidance := by rw [saidTo_append, h.guidance, k.guidance]
  lighting := by rw [saidTo_append, h.lighting, k.lighting]
  fan := by rw [saidTo_append, h.fan, k.fan]
  terminal := by rw [saidTo_append, h.terminal, k.terminal]

theorem says_attend (b : Attn) : Says [.attend b] [] [] [] := ⟨rfl, rfl, rfl, rfl, rfl⟩

theorem says_hardLocks (on : Bool) : Says [.hardLocks on] [on] [] [] := ⟨rfl, rfl, rfl, rfl, rfl⟩

theorem Says.append_hardLocks {es : List Eff} {ls : List Bool} {gs os : List Body} (h : Says es ls gs os) (on : Bool) :
    Says (es ++ [.hardLocks on]) (ls ++ [on]) gs os := by
  simpa using h.append (says_hardLocks on)

/-! ### Override notices (R90, R92) -/

/-- The Applied Stages that the override notice carries to Guidance: at the passage to CLEARING alone. -/
def carriedStages (u : Air) (o : Override) : List Nat :=
  if o = .clearing then (List.range 16).map (fun z => (u.zone z).stage) else []

/-- The four override notices. -/
def overrideNotices (o : Override) (stages : List Nat) : List Eff :=
  [airSend .guidance (.override o stages), airSend .lighting (.override o []), airSend .fan (.override o []),
    airSend .terminal (.override o [])]

theorem sayOverride_u (a : AirAcc) (o : Override) : (sayOverride a o).u = a.u := rfl

theorem sayOverride_out (a : AirAcc) (o : Override) :
    (sayOverride a o).out = a.out ++ overrideNotices o (carriedStages a.u o) := by
  simp [sayOverride, overrideNotices, carriedStages]

theorem says_overrideNotices (o : Override) (stages : List Nat) :
    Says (overrideNotices o stages) [] [.override o stages] [.override o []] := ⟨rfl, rfl, rfl, rfl, rfl⟩

/-! ### The event put into the part -/

/-- R89: the Terminal Block is told of a change of the Alarm condition, and no other unit. -/
theorem saidTo_evalAlarm (u : UnitId) (a : AirAcc) :
    saidTo u (evalAlarm a).out = saidTo u a.out ++ if u = .terminal then alarmTold a.u.alarm (alarmOf a.u) else [] := by
  rw [evalAlarm_out, saidTo_append]
  congr 1
  unfold alarmTold
  split
  · simp [saidTo, bodiesTo]
  · cases u <;> rfl

theorem locks_evalAlarm (a : AirAcc) : (evalAlarm a).out.flatMap Eff.locks = a.out.flatMap Eff.locks := by
  rw [evalAlarm_out, List.flatMap_append]
  unfold alarmTold
  split <;> simp [airSend, Eff.locks]

/-- From `s` to `t` the four units are told, behind what is on its way in `rest`: Guidance `guidance`, the others `others`, and
the Terminal Block last a change of the Alarm condition. -/
def State.airTold (s t : State) (rest : List Msg) (guidance others : List Body) : Prop :=
  bodiesTo .guidance t.chan = bodiesTo .guidance rest ++ guidance ∧
    bodiesTo .lighting t.chan = bodiesTo .lighting rest ++ others ∧
    bodiesTo .fan t.chan = bodiesTo .fan rest ++ others ∧
    bodiesTo .terminal t.chan = bodiesTo .terminal rest ++ others ++ alarmTold s.air.alarm t.air.alarm

theorem State.withAir_guard (r : State) {a : AirAcc} {ls : List Bool} {gs os : List Body} (h : Says a.out ls gs os) :
    (r.withAir a).guard = ls.foldl Guard.setHard r.guard := by
  unfold State.withAir
  dsimp only
  rw [State.emit_guard_locks, locks_evalAlarm, h.locks]

theorem State.withAir_told {s r : State} {a : AirAcc} {ls : List Bool} {gs os : List Body} (halarm : a.u.alarm = s.air.alarm)
    (h : Says a.out ls gs os) : s.airTold (r.withAir a) r.chan gs os := by
  have hchan (u : UnitId) : bodiesTo u (r.withAir a).chan = bodiesTo u r.chan ++ (saidTo u a.out ++
      if u = .terminal then alarmTold a.u.alarm (alarmOf a.u) else []) := by
    rw [State.withAir_chan, bodiesTo_append, ← saidTo_evalAlarm]
    rfl
  refine ⟨?_, ?_, ?_, ?_⟩
  · rw [hchan, h.guidance]
    simp
  · rw [hchan, h.lighting]
    simp
  · rw [hchan, h.fan]
    simp
  · rw [hchan, h.terminal, State.withAir_alarm, halarm, if_pos rfl, List.append_assoc]

end Sys2Proof.Machine
end

section
/-! SUPPORT. A new Applied Stage in each of several zones (R87, R88): the zones, the effects, and what the part then holds. -/

namespace Sys2Proof.Machine

/-! ### One zone -/

/-- A zone at Applied Stage `k` with the hold-down `d`; a change of the stage is dated. -/
def AZone.restage (x : AZone) (now : BitVec 32) (k : Nat) (d : Option Nat) : AZone :=
  { x with stage := k, since := if k = x.stage then x.since else now, holdDown := d }

/-- R88: the effects of zone `z` going from Applied Stage `j` to `k`. -/
def stageNotices (z j k : Nat) (g : Bool) : List Eff :=
  if j = k then [] else [.reflect (.record .zone z), .attend .stage, airSend .fan (.stage z k), airSend .lighting (.stage z k),
    airSend .terminal (.stage z k)] ++ if g then [airSend .guidance (.stage z k)] else []

/-- The stage notice of a change. -/
def stageTold (z j k : Nat) : List Body := if j = k then [] else [.stage z k]

theorem says_stageNotices (z j k : Nat) (g : Bool) :
    Says (stageNotices z j k g) [] (if g then stageTold z j k else []) (stageTold z j k) := by
  unfold stageNotices stageTold
  split
  · cases g <;> exact Says.nil
  · cases g <;> exact ⟨rfl, rfl, rfl, rfl, rfl⟩

theorem attend_mem_stageNotices {z j k : Nat} (g : Bool) (h : k ≠ j) : .attend .stage ∈ stageNotices z j k g := by
  simp [stageNotices, Ne.symm h]

theorem reflect_mem_stageNotices {z j k : Nat} (g : Bool) (h : k ≠ j) :
    .reflect (.record .zone z) ∈ stageNotices z j k g := by
  simp [stageNotices, Ne.symm h]

theorem setStage_zone (s : State) (a : AirAcc) (z k : Nat) (g : Bool) (w : Nat) :
    (setStage s a z k g).u.zone w = if w = z then (a.u.zone z).restage s.time k (a.u.zone z).holdDown else a.u.zone w := by
  unfold setStage AZone.restage
  dsimp only
  split
  · rename_i h
    subst h
    split
    · rename_i hw
      rw [if_pos rfl, hw]
    · rfl
  · rename_i h
    rw [if_neg (Ne.symm h)]
    simp

theorem setStage_out (s : State) (a : AirAcc) (z k : Nat) (g : Bool) :
    (setStage s a z k g).out = a.out ++ stageNotices z (a.u.zone z).stage k g := by
  unfold setStage stageNotices
  dsimp only
  split
  · simp
  · cases g <;> simp [Acc.sayIf]

/-! ### Several zones -/

/-- From `a` to `b` each zone `x` among `zs` goes to the Applied Stage `k x` with the hold-down `d x`, with its notices, and
nothing else changes. -/
structure Restages (now : BitVec 32) (k : AZone → Nat) (d : AZone → Option Nat) (g : Bool) (zs : List Nat) (a b : AirAcc) :
    Prop where
  zone : ∀ w, b.u.zone w = if w ∈ zs then (a.u.zone w).restage now (k (a.u.zone w)) (d (a.u.zone w)) else a.u.zone w
  only : Acc.zonesOnly a b
  out : b.out = a.out ++ zs.flatMap (fun z => stageNotices z (a.u.zone z).stage (k (a.u.zone z)) g)

section Restages

variable {now : BitVec 32} {k : AZone → Nat} {d : AZone → Option Nat} {g : Bool} {a b c : AirAcc}

theorem Restages.nil (a : AirAcc) : Restages now k d g [] a a := ⟨fun _ => by simp, Acc.zonesOnly_refl a, by simp⟩

theorem Restages.cons {z : Nat} {zs : List Nat} (h : Restages now k d g [z] a b) (i : Restages now k d g zs b c)
    (hz : z ∉ zs) : Restages now k d g (z :: zs) a c := by
  have hother {w : Nat} (hw : w ≠ z) : b.u.zone w = a.u.zone w := by
    rw [h.zone, if_neg (by simpa using hw)]
  refine ⟨fun w => ?_, Acc.zonesOnly_trans h.only i.only, ?_⟩
  · rw [i.zone]
    by_cases hw : w = z
    · subst hw
      rw [if_neg hz, h.zone, if_pos (by simp), if_pos (by simp)]
    · rw [hother hw]
      simp [hw]
  · have hsame : zs.flatMap (fun z => stageNotices z (b.u.zone z).stage (k (b.u.zone z)) g) =
        zs.flatMap (fun z => stageNotices z (a.u.zone z).stage (k (a.u.zone z)) g) :=
      List.flatMap_congr fun w hw => by rw [hother (fun e => hz (e ▸ hw))]
    rw [i.out, h.out, hsame, List.append_assoc]
    simp

/-- A piece of work that restages its own zone while the Override State is `o` restages every zone it is done for. -/
theorem Restages.each {o : Override} {f : AirAcc → Nat → AirAcc}
    (hf : ∀ a z, a.u.override = o → Restages now k d g [z] a (f a z)) {zs : List Nat} (hzs : zs.Nodup) {a : AirAcc}
    (ha : a.u.override = o) : Restages now k d g zs a (a.each zs f) := by
  induction zs generalizing a with
  | nil => exact Restages.nil a
  | cons z zs ih =>
    obtain ⟨hz, hnodup⟩ := List.nodup_cons.mp hzs
    have hstep := hf a z ha
    exact hstep.cons (ih hnodup (hstep.only.1.override.trans ha)) hz

end Restages

/-- R92, R94: the hold-down stops and the zone goes to a stage. -/
theorem setStage_restages (s : State) (a : AirAcc) (z : Nat) (k : AZone → Nat) (g : Bool) :
    Restages s.time k (fun _ => none) g [z] a
      (setStage s (a.put (a.u.setZone z { a.u.zone z with holdDown := none })) z (k (a.u.zone z)) g) := by
  refine ⟨fun w => ?_, Acc.zonesOnly_trans (Acc.zonesOnly_setZone a z _) (setStage_zonesOnly s _ z _ g), ?_⟩
  · rw [setStage_zone]
    by_cases hw : w = z
    · subst hw
      simp [AZone.restage]
    · simp [hw]
  · rw [setStage_out]
    simp

/-- A zone that keeps its stage, with a hold-down of its own. -/
theorem setHold_restages (now : BitVec 32) (g : Bool) (a : AirAcc) (z : Nat) (h : Option Nat) :
    Restages now (fun x => x.stage) (fun _ => h) g [z] a (a.put (a.u.setZone z { a.u.zone z with holdDown := h })) := by
  refine ⟨fun w => ?_, Acc.zonesOnly_setZone a z _, by simp [stageNotices]⟩
  by_cases hw : w = z
  · subst hw
    simp [AZone.restage]
  · simp [hw]

/-- A zone that stays as it was. -/
theorem kept_restages (now : BitVec 32) (g : Bool) (a : AirAcc) (z : Nat) :
    Restages now (fun x => x.stage) (fun x => x.holdDown) g [z] a a :=
  ⟨fun w => by simp [AZone.restage], Acc.zonesOnly_refl a, by simp [stageNotices]⟩

/-- Where a piece of work restages one zone, the stage and the hold-down that it gives to that zone alone matter. -/
theorem Restages.at_zone {now : BitVec 32} {k k' : AZone → Nat} {d d' : AZone → Option Nat} {g : Bool} {z : Nat}
    {a b : AirAcc} (h : Restages now k d g [z] a b) (hk : k' (a.u.zone z) = k (a.u.zone z)) (hd : d' (a.u.zone z) = d (a.u.zone z)) :
    Restages now k' d' g [z] a b := by
  refine ⟨fun w => ?_, h.only, ?_⟩
  · rw [h.zone]
    by_cases hw : w = z
    · rw [hw, hk, hd]
    · simp [hw]
  · rw [h.out]
    simp [hk]

/-- R87: the hold-down after the stage rule: a zone whose D is below its stage runs it. -/
def ruledHold (s : State) (x : AZone) : Option Nat :=
  if x.demand < x.stage then (if x.holdDown.isSome then x.holdDown else some (s.inSecs (holdDownSecs x.inForce))) else none

section StageRule

variable (s : State) {a : AirAcc} {z : Nat} (ho : a.u.override ≠ .clearing)

include ho

theorem stageRule_below (h : (a.u.zone z).stage < (a.u.zone z).demand) :
    stageRule s a z = setStage s (a.put (a.u.setZone z { a.u.zone z with holdDown := none })) z (a.u.zone z).demand true := by
  unfold stageRule
  dsimp only
  rw [if_neg ho, if_pos h]

theorem stageRule_above (h : (a.u.zone z).demand < (a.u.zone z).stage) :
    stageRule s a z = if (a.u.zone z).holdDown.isNone then
      a.put (a.u.setZone z { a.u.zone z with holdDown := some (s.inSecs (holdDownSecs (a.u.zone z).inForce)) }) else a := by
  unfold stageRule
  dsimp only
  rw [if_neg ho, if_neg (Nat.lt_asymm h), if_pos h]

theorem stageRule_level (h : (a.u.zone z).demand = (a.u.zone z).stage) :
    stageRule s a z = a.put (a.u.setZone z { a.u.zone z with holdDown := none }) := by
  unfold stageRule
  dsimp only
  rw [if_neg ho, if_neg (by omega), if_neg (by omega)]

/-- R87: outside CLEARING the stage rule raises the stage to D at once, and keeps a stage above D while the hold-down runs. -/
theorem stageRule_restages :
    Restages s.time (fun x => max x.stage x.demand) (ruledHold s) true [z] a (stageRule s a z) := by
  rcases lt_trichotomy (a.u.zone z).stage (a.u.zone z).demand with h | h | h
  · rw [stageRule_below s ho h]
    exact (setStage_restages s a z (fun x => x.demand) true).at_zone (by omega) (if_neg (by omega))
  · rw [stageRule_level s ho h.symm]
    exact (setHold_restages s.time true a z none).at_zone (by omega) (if_neg (by omega))
  · rw [stageRule_above s ho h]
    split
    · rename_i hnone
      refine (setHold_restages s.time true a z _).at_zone (by omega) ?_
      rw [ruledHold, if_pos h, if_neg (by simpa using hnone)]
    · rename_i hsome
      refine (kept_restages s.time true a z).at_zone (by omega) ?_
      rw [ruledHold, if_pos h, if_pos (by simpa [Option.isSome_iff_ne_none] using hsome)]

end StageRule

/-! ### The enabled zones in the part -/

theorem enabledZones_nodup (u : Air) : (enabledZones u).Nodup := List.nodup_range.filter _

theorem mem_enabledZones {u : Air} {z : Nat} : z ∈ enabledZones u ↔ z < 16 ∧ (u.zone z).inForce.enabled = true := by
  simp [enabledZones]

/-- The notices of the zones whose Applied Stages differ, in zone order. -/
def stagesTold (x y : Nat → AZone) : List Body :=
  ((List.range 16).filter (fun z => decide ((y z).stage ≠ (x z).stage))).map (fun z => .stage z (y z).stage)

/-- Each zone's date, attention bit and record follow its Applied Stage, and a disabled zone stays as it was. -/
def State.dated (s t : State) : Prop :=
  ∀ z, z < 16 →
    let x := s.air.zone z
    let y := t.air.zone z
    (x.inForce.enabled = false → y = x) ∧ y.demand = x.demand ∧ (y.stage = x.stage → y.since = x.since) ∧
      (y.stage ≠ x.stage → y.since = s.time ∧ t.attends .stage ∧ .record .zone z ∈ t.reflect.list)

/-- A list's notices for the elements that `p` keeps are those of the elements that `q` keeps, where `q` alone makes a notice. -/
theorem flatMap_filter_eq_map_filter {α β : Type} {p q : α → Bool} {f : α → List β} {h : α → β} {xs : List α}
    (hx : ∀ x ∈ xs, (if p x then f x else []) = if q x then [h x] else []) :
    (xs.filter p).flatMap f = (xs.filter q).map h := by
  induction xs with
  | nil => rfl
  | cons x xs ih =>
    have hhead := hx x (by simp)
    have htail := ih (fun y hy => hx y (by simp [hy]))
    cases hp : p x <;> cases hq : q x <;> simp_all

section EnabledZones

variable {now : BitVec 32} {k : AZone → Nat} {d : AZone → Option Nat} {g : Bool} {a b : AirAcc}

theorem Restages.zone_enabled (h : Restages now k d g (enabledZones a.u) a b) {z : Nat} (hz : z < 16)
    (he : (a.u.zone z).inForce.enabled = true) :
    b.u.zone z = (a.u.zone z).restage now (k (a.u.zone z)) (d (a.u.zone z)) := by
  rw [h.zone, if_pos (mem_enabledZones.mpr ⟨hz, he⟩)]

theorem Restages.zone_disabled (h : Restages now k d g (enabledZones a.u) a b) {z : Nat}
    (he : (a.u.zone z).inForce.enabled = false) : b.u.zone z = a.u.zone z := by
  rw [h.zone, if_neg (fun hm => by simp [mem_enabledZones, he] at hm)]

theorem says_stages (u : Air) (k : AZone → Nat) (g : Bool) (zs : List Nat) :
    Says (zs.flatMap (fun z => stageNotices z (u.zone z).stage (k (u.zone z)) g)) []
      (if g then zs.flatMap (fun z => stageTold z (u.zone z).stage (k (u.zone z))) else [])
      (zs.flatMap (fun z => stageTold z (u.zone z).stage (k (u.zone z)))) := by
  induction zs with
  | nil => cases g <;> exact Says.nil
  | cons z zs ih =>
    have h := (says_stageNotices z (u.zone z).stage (k (u.zone z)) g).append ih
    cases g <;> exact h

theorem Restages.stagesTold_eq (h : Restages now k d g (enabledZones a.u) a b) :
    stagesTold a.u.zone b.u.zone = (enabledZones a.u).flatMap (fun z => stageTold z (a.u.zone z).stage (k (a.u.zone z))) := by
  refine (flatMap_filter_eq_map_filter fun z hz => ?_).symm
  cases he : (a.u.zone z).inForce.enabled with
  | false => simp [h.zone_disabled he]
  | true =>
    rw [h.zone_enabled (List.mem_range.mp hz) he]
    by_cases hk : (a.u.zone z).stage = k (a.u.zone z)
    · simp [stageTold, AZone.restage, hk]
    · simp [stageTold, AZone.restage, hk, Ne.symm hk]

/-- The effects of restaged zones tell of the stages that have changed, Guidance when `g` says so. -/
theorem Restages.says (h : Restages now k d g (enabledZones a.u) a b) :
    ∃ es, b.out = a.out ++ es ∧
      Says es [] (if g then stagesTold a.u.zone b.u.zone else []) (stagesTold a.u.zone b.u.zone) := by
  refine ⟨_, h.out, ?_⟩
  rw [h.stagesTold_eq]
  exact says_stages a.u k g (enabledZones a.u)

theorem Restages.effects (h : Restages now k d g (enabledZones a.u) a b) {z : Nat} (hz : z ∈ enabledZones a.u)
    (hk : k (a.u.zone z) ≠ (a.u.zone z).stage) : .attend .stage ∈ b.out ∧ .reflect (.record .zone z) ∈ b.out := by
  rw [h.out]
  exact ⟨List.mem_append_right _ (List.mem_flatMap.mpr ⟨z, hz, attend_mem_stageNotices g hk⟩),
    List.mem_append_right _ (List.mem_flatMap.mpr ⟨z, hz, reflect_mem_stageNotices g hk⟩)⟩

theorem State.dated_of_restages {s r : State} {c : AirAcc} (h : Restages s.time k d g (enabledZones a.u) a b)
    (ha : a.u.zone = s.air.zone) (hc : c.u.zone = b.u.zone) (hgrows : Acc.grows b c) : s.dated (r.withAir c) := by
  intro z hz
  dsimp only
  rw [State.withAir_zone, hc, ← ha]
  cases he : (a.u.zone z).inForce.enabled with
  | false =>
    rw [h.zone_disabled he]
    exact ⟨fun _ => rfl, rfl, fun _ => rfl, fun hne => absurd rfl hne⟩
  | true =>
    rw [h.zone_enabled hz he]
    refine ⟨fun hf => absurd hf (by simp), rfl, fun hk => if_pos hk, fun hk => ⟨if_neg hk, ?_⟩⟩
    obtain ⟨hattend, hreflect⟩ := h.effects (mem_enabledZones.mpr ⟨hz, he⟩) hk
    exact ⟨State.withAir_attends r (Acc.mem_of_grows hgrows hattend), State.withAir_listed r (Acc.mem_of_grows hgrows hreflect)⟩

end EnabledZones

end Sys2Proof.Machine
end

section
/-! SUPPORT. The passages of the Override State (R90 to R94): what each makes of the unit and what it says, then the passages in
the part. -/

namespace Sys2Proof.Machine

/-! ### The passages at work -/

theorem overrideEntry_u (a : AirAcc) : (overrideEntry a).u = { a.u with override := .active } := rfl

theorem overrideEntry_out (a : AirAcc) :
    (overrideEntry a).out = a.out ++ ([.hardLocks true] ++ overrideNotices .active [] ++ [.attend .override]) := by
  simp [overrideEntry, sayOverride, overrideNotices]

/-- R92: the enabled zones at stage 4, before the notices. -/
def clearingStages (s : State) (a : AirAcc) : AirAcc :=
  a.each (enabledZones a.u) (fun a z => setStage s (a.put (a.u.setZone z { a.u.zone z with holdDown := none })) z 4 false)

theorem clearingStages_restages (s : State) (a : AirAcc) :
    Restages s.time (fun _ => 4) (fun _ => none) false (enabledZones a.u) a (clearingStages s a) :=
  Restages.each (fun a z _ => setStage_restages s a z (fun _ => 4) false) (enabledZones_nodup a.u) rfl

theorem overrideClearing_u (s : State) (a : AirAcc) : (overrideClearing s a).u =
    { (clearingStages s a).u with override := .clearing, purgeTimer := some (s.inSecs s.cfg.params.purgePeriod) } := rfl

theorem overrideClearing_out (s : State) (a : AirAcc) : (overrideClearing s a).out = (clearingStages s a).out ++
    overrideNotices .clearing ((List.range 16).map (fun z => ((clearingStages s a).u.zone z).stage)) :=
  sayOverride_out _ .clearing

/-- R93: the notices, before the stage rule. -/
def relapseNotices (a : AirAcc) : AirAcc :=
  sayOverride ((a.put { a.u with override := .active, purgeTimer := none }).say (.attend .override)) .active

theorem relapseNotices_out (a : AirAcc) :
    (relapseNotices a).out = a.out ++ ([.attend .override] ++ overrideNotices .active []) := by
  simp [relapseNotices, sayOverride, overrideNotices]

theorem overrideRelapse_restages (s : State) (a : AirAcc) :
    Restages s.time (fun x => max x.stage x.demand) (ruledHold s) true (enabledZones (relapseNotices a).u)
      (relapseNotices a) (overrideRelapse s a) :=
  Restages.each (o := .active) (fun b z hb => stageRule_restages s (z := z) (by simp [hb])) (enabledZones_nodup a.u) rfl

/-- R94: the notices, before the stages. -/
def endNotices (a : AirAcc) : AirAcc := sayOverride (a.put { a.u with override := .normal, purgeTimer := none }) .normal

theorem endNotices_out (a : AirAcc) : (endNotices a).out = a.out ++ overrideNotices .normal [] := sayOverride_out _ .normal

/-- R94: the enabled zones at their demands, before the hard locks are released. -/
def endStages (s : State) (a : AirAcc) : AirAcc :=
  (endNotices a).each (enabledZones a.u) (fun a z =>
    setStage s (a.put (a.u.setZone z { a.u.zone z with holdDown := none })) z (a.u.zone z).demand true)

theorem endStages_restages (s : State) (a : AirAcc) :
    Restages s.time (fun x => x.demand) (fun _ => none) true (enabledZones (endNotices a).u) (endNotices a)
      (endStages s a) :=
  Restages.each (o := .normal) (fun b z _ => setStage_restages s b z (fun x => x.demand) true) (enabledZones_nodup a.u) rfl

theorem overrideEnd_eq (s : State) (a : AirAcc) : overrideEnd s a = (endStages s a).say (.hardLocks false) := rfl

theorem alarmOf_active {u : Air} (h : u.override = .active) : alarmOf u = true := by simp [alarmOf, h]

/-! ### The events -/

/-- The work of a smoke notice starts with the smoke copy at its new value. -/
def smokeStart (s : State) (active : Bool) : AirAcc := Acc.start { s.air with smoke := active }

theorem airSmoke_same {s : State} {active : Bool} (h : s.air.smoke = active) : airSmoke s active = s := by
  rw [airSmoke, if_pos h]

theorem airSmoke_of_normal {s : State} (h : s.air.smoke = false) (ho : s.air.override = .normal) :
    airSmoke s true = s.withAir (overrideEntry (smokeStart s true)) := by
  rw [airSmoke, if_neg (by simp [h]), ho]
  rfl

theorem airSmoke_of_active {s : State} (h : s.air.smoke = true) (ho : s.air.override = .active) :
    airSmoke s false = s.withAir (overrideClearing s (smokeStart s false)) := by
  rw [airSmoke, if_neg (by simp [h]), ho]
  rfl

theorem airSmoke_of_clearing {s : State} (h : s.air.smoke = false) (ho : s.air.override = .clearing) :
    airSmoke s true = s.withAir (overrideRelapse s (smokeStart s true)) := by
  rw [airSmoke, if_neg (by simp [h]), ho]
  rfl

theorem airPurgeEnd_of_clearing {s : State} (ho : s.air.override = .clearing) :
    airPurgeEnd s = s.withAir (overrideEnd s (Acc.start s.air)) := by
  rw [airPurgeEnd, if_pos ho]

theorem exec_smokeActive_next {s : State} (h : s.next? .terminal .air = some (.smoke true)) :
    exec .smokeActive s = .next (airSmoke (s.taken .terminal .air) true) :=
  congrArg goOn (State.take_next (fun s => airSmoke s true) h)

theorem exec_smokeInactive_next {s : State} (h : s.next? .terminal .air = some (.smoke false)) :
    exec .smokeInactive s = .next (airSmoke (s.taken .terminal .air) false) :=
  congrArg goOn (State.take_next (fun s => airSmoke s false) h)

theorem exec_purgeTimerExpiry_due {s : State} (h : s.due s.air.purgeTimer = true) :
    exec .purgeTimerExpiry s = .next (airPurgeEnd s) := by
  show goOn (s.when_ (s.due s.air.purgeTimer) airPurgeEnd) = _
  rw [h]
  rfl

/-! ### The passages in the part -/

/-- The hard locks of ZONE, GROUP and FAN stand at `on`, and the lock bits as they were. -/
def State.hardLocked (s t : State) (on : Bool) : Prop :=
  t.guard.hardZone = on ∧ t.guard.hardGroup = on ∧ t.guard.hardFan = on ∧ t.guard.locks = s.guard.locks

theorem State.hardLocked_of_guard {s t : State} {on : Bool} (h : t.guard = s.guard.setHard on) : s.hardLocked t on := by
  unfold State.hardLocked
  rw [h]
  exact ⟨rfl, rfl, rfl, rfl⟩

/-- R91. -/
theorem airSmoke_entry {s : State} (hsmoke : s.air.smoke = false) (ho : s.air.override = .normal) :
    let t := airSmoke s true
    t.air.override = .active ∧ t.air.smoke = true ∧ s.hardLocked t true ∧ t.attends .override ∧ t.air.alarm = true ∧
      s.airTold t s.chan [.override .active []] [.override .active []] ∧ ∀ z, t.air.zone z = s.air.zone z := by
  have hsays : Says (overrideEntry (smokeStart s true)).out [true] [.override .active []] [.override .active []] := by
    rw [overrideEntry_out]
    exact ((says_hardLocks true).append (says_overrideNotices .active [])).append (says_attend .override)
  dsimp only
  rw [airSmoke_of_normal hsmoke ho]
  refine ⟨State.withAir_override _ _, State.withAir_smoke _ _, State.hardLocked_of_guard (State.withAir_guard s hsays),
    State.withAir_attends s ?_, (State.withAir_alarm _ _).trans (alarmOf_active rfl), State.withAir_told rfl hsays,
    fun z => congrFun (State.withAir_zone _ _) z⟩
  rw [overrideEntry_out]
  simp

/-- R92. -/
theorem airSmoke_clearing {s : State} (hsmoke : s.air.smoke = true) (ho : s.air.override = .active) :
    let t := airSmoke s false
    t.air.override = .clearing ∧ t.air.smoke = false ∧ t.guard = s.guard ∧
      s.airTold t s.chan [.override .clearing ((List.range 16).map (fun z => (t.air.zone z).stage))]
        (stagesTold s.air.zone t.air.zone ++ [.override .clearing []]) ∧ s.dated t ∧
      t.air.purgeTimer = some (s.clock + 1000 * s.cfg.params.purgePeriod) ∧
      ∀ z, z < 16 → (s.air.zone z).inForce.enabled = true → (t.air.zone z).stage = 4 ∧ (t.air.zone z).holdDown = none := by
  have hstages := clearingStages_restages s (smokeStart s false)
  have hrest : (smokeStart s false).u.keepsRest (clearingStages s (smokeStart s false)).u := hstages.only.1
  have hzone : (airSmoke s false).air.zone = (clearingStages s (smokeStart s false)).u.zone := by
    rw [airSmoke_of_active hsmoke ho]
    exact State.withAir_zone _ _
  obtain ⟨es, hes, hstagesSay⟩ := hstages.says
  have hsays : Says (overrideClearing s (smokeStart s false)).out []
      [.override .clearing ((List.range 16).map (fun z => ((clearingStages s (smokeStart s false)).u.zone z).stage))]
      (stagesTold s.air.zone (clearingStages s (smokeStart s false)).u.zone ++ [.override .clearing []]) := by
    rw [overrideClearing_out, hes]
    exact hstagesSay.append (says_overrideNotices .clearing _)
  dsimp only
  rw [hzone, airSmoke_of_active hsmoke ho]
  refine ⟨State.withAir_override _ _, (State.withAir_smoke _ _).trans hrest.smoke, State.withAir_guard s hsays,
    State.withAir_told hrest.alarm hsays, State.dated_of_restages hstages rfl rfl ⟨_, overrideClearing_out s _⟩,
    State.withAir_purgeTimer _ _, fun z hz he => ?_⟩
  rw [hstages.zone_enabled hz he]
  exact ⟨rfl, rfl⟩

/-- R93. -/
theorem airSmoke_relapse {s : State} (hsmoke : s.air.smoke = false) (ho : s.air.override = .clearing) :
    let t := airSmoke s true
    t.air.override = .active ∧ t.air.smoke = true ∧ t.air.purgeTimer = none ∧ t.attends .override ∧ t.guard = s.guard ∧
      t.air.alarm = true ∧
      s.airTold t s.chan (.override .active [] :: stagesTold s.air.zone t.air.zone)
        (.override .active [] :: stagesTold s.air.zone t.air.zone) ∧ s.dated t ∧
      ∀ z, z < 16 → (s.air.zone z).inForce.enabled = true →
        (t.air.zone z).stage = max (s.air.zone z).stage (s.air.zone z).demand ∧
          (t.air.zone z).holdDown = ruledHold s (s.air.zone z) := by
  have hstages := overrideRelapse_restages s (smokeStart s true)
  have hrest : (relapseNotices (smokeStart s true)).u.keepsRest (overrideRelapse s (smokeStart s true)).u := hstages.only.1
  have hzone : (airSmoke s true).air.zone = (overrideRelapse s (smokeStart s true)).u.zone := by
    rw [airSmoke_of_clearing hsmoke ho]
    exact State.withAir_zone _ _
  obtain ⟨es, hes, hstagesSay⟩ := hstages.says
  have hsays : Says (overrideRelapse s (smokeStart s true)).out []
      (.override .active [] :: stagesTold s.air.zone (overrideRelapse s (smokeStart s true)).u.zone)
      (.override .active [] :: stagesTold s.air.zone (overrideRelapse s (smokeStart s true)).u.zone) := by
    rw [hes, relapseNotices_out]
    exact ((says_attend .override).append (says_overrideNotices .active [])).append hstagesSay
  dsimp only
  rw [hzone, airSmoke_of_clearing hsmoke ho]
  refine ⟨(State.withAir_override _ _).trans hrest.override, (State.withAir_smoke _ _).trans hrest.smoke,
    (State.withAir_purgeTimer _ _).trans hrest.purgeTimer, State.withAir_attends s ?_, State.withAir_guard s hsays,
    (State.withAir_alarm _ _).trans (alarmOf_active hrest.override), State.withAir_told hrest.alarm hsays,
    State.dated_of_restages hstages rfl rfl (Acc.grows_refl _), fun z hz he => ?_⟩
  · rw [hes, relapseNotices_out]
    simp
  · rw [hstages.zone_enabled hz he]
    exact ⟨rfl, rfl⟩

/-- R94. -/
theorem airPurgeEnd_ends {s : State} (ho : s.air.override = .clearing) :
    let t := airPurgeEnd s
    t.air.override = .normal ∧ t.air.purgeTimer = none ∧ s.hardLocked t false ∧
      s.airTold t s.chan (.override .normal [] :: stagesTold s.air.zone t.air.zone)
        (.override .normal [] :: stagesTold s.air.zone t.air.zone) ∧ s.dated t ∧
      ∀ z, z < 16 → (s.air.zone z).inForce.enabled = true →
        (t.air.zone z).stage = (s.air.zone z).demand ∧ (t.air.zone z).holdDown = none := by
  have hstages := endStages_restages s (Acc.start s.air)
  have hrest : (endNotices (Acc.start s.air)).u.keepsRest (endStages s (Acc.start s.air)).u := hstages.only.1
  have hzone : (airPurgeEnd s).air.zone = (endStages s (Acc.start s.air)).u.zone := by
    rw [airPurgeEnd_of_clearing ho]
    exact State.withAir_zone _ _
  obtain ⟨es, hes, hstagesSay⟩ := hstages.says
  have hsays : Says (overrideEnd s (Acc.start s.air)).out [false]
      (.override .normal [] :: stagesTold s.air.zone (endStages s (Acc.start s.air)).u.zone)
      (.override .normal [] :: stagesTold s.air.zone (endStages s (Acc.start s.air)).u.zone) := by
    rw [overrideEnd_eq, Acc.say_out, hes, endNotices_out]
    exact ((says_overrideNotices .normal []).append hstagesSay).append_hardLocks false
  dsimp only
  rw [hzone, airPurgeEnd_of_clearing ho]
  refine ⟨(State.withAir_override _ _).trans hrest.override, (State.withAir_purgeTimer _ _).trans hrest.purgeTimer,
    State.hardLocked_of_guard (State.withAir_guard s hsays), State.withAir_told hrest.alarm hsays,
    State.dated_of_restages hstages rfl rfl (Acc.grows_say _ _), fun z hz he => ?_⟩
  rw [hstages.zone_enabled hz he]
  exact ⟨rfl, rfl⟩

/-- Settles O44: each passage of Table 5.3 by its own rule, on the part once the smoke notice has been taken; a notice that
leaves the smoke copy as it was leaves that part. -/
theorem smokeOverridePasses : Obligations.SmokeOverridePasses := by
  intro s to_ changed alarm told dated taken hard
  refine ⟨fun hnext hsmoke => ⟨fun ho => ?_, fun ho => ?_⟩, fun hnext hsmoke ho => ?_, fun hdue ho => ?_, fun on hnext hsmoke => ?_⟩
  · exact ⟨_, exec_smokeActive_next hnext, airSmoke_entry (s := s.taken .terminal .air) hsmoke ho⟩
  · obtain ⟨hoverride, hcopy, hpurge, hattends, hguard, halarm, htold, hdated, hzones⟩ :=
      airSmoke_relapse (s := s.taken .terminal .air) hsmoke ho
    refine ⟨_, exec_smokeActive_next hnext, hoverride, hcopy, hpurge, hattends, hguard, halarm, htold, hdated,
      fun z hz he => ?_⟩
    obtain ⟨hstage, hhold⟩ := hzones z hz he
    exact ⟨fun hle => ⟨hstage.trans (max_eq_right hle), hhold.trans (if_neg (Nat.not_lt.mpr hle))⟩,
      fun hlt => ⟨hstage.trans (max_eq_left hlt.le), hhold.trans (if_pos hlt)⟩⟩
  · exact ⟨_, exec_smokeInactive_next hnext, airSmoke_clearing (s := s.taken .terminal .air) hsmoke ho⟩
  · exact ⟨_, exec_purgeTimerExpiry_due hdue, airPurgeEnd_ends ho⟩
  · cases on with
    | true => exact (exec_smokeActive_next hnext).trans (congrArg _ (airSmoke_same (s := s.taken .terminal .air) hsmoke))
    | false => exact (exec_smokeInactive_next hnext).trans (congrArg _ (airSmoke_same (s := s.taken .terminal .air) hsmoke))

end Sys2Proof.Machine
end

section
/-! SUPPORT. Attention Pending and Attention Enable (R175): each operation on the two registers bit by bit, and what a beat on
020h and the resets leave in the part. -/

namespace Sys2Proof.Machine

/-! ### The bits of Table 11.4 -/

theorem attnBit_lt (a : Attn) : attnBit a < 16 := by cases a <;> decide

theorem attnMask_getLsbD (a : Attn) (k : Nat) : (attnMask a).getLsbD k = decide (k = attnBit a) := by
  have hlt := attnBit_lt a
  unfold attnMask
  rw [BitVec.getLsbD_ofNat, Nat.testBit_two_pow, ← Bool.decide_and]
  exact decide_eq_decide.mpr (by omega)

theorem Live.attend_getLsbD (v : Live) (a : Attn) (k : Nat) :
    (v.attend a).pendingAtt.getLsbD k = (v.pendingAtt.getLsbD k || decide (k = attnBit a)) := by
  rw [← attnMask_getLsbD]
  exact BitVec.getLsbD_or

theorem State.halt_attends (s : State) (st : List Byte) (code : Byte) : (s.halt st code).attends .halted := by
  unfold State.attends
  exact (s.live.attend_getLsbD .halted _).trans (by simp)

/-- A register is not 0 exactly when one of its bits is set. -/
theorem ne_zero_iff_getLsbD {w : Nat} (x : BitVec w) : x ≠ 0 ↔ ∃ k, k < w ∧ x.getLsbD k = true := by
  rw [← not_iff_not, not_not]
  push Not
  exact ⟨fun h k _ => by simp [h], fun h => BitVec.eq_of_getLsbD_eq (fun k hk => by simp [h k hk])⟩

theorem Live.attentionLine_iff (v : Live) : v.attentionLine = true ↔ v.pendingAtt.getLsbD (attnBit .halted) = true ∨
    ∃ k, k < 16 ∧ v.pendingAtt.getLsbD k = true ∧ v.enableAtt.getLsbD k = true := by
  have hand : v.pendingAtt &&& v.enableAtt ≠ 0 ↔
      ∃ k, k < 16 ∧ v.pendingAtt.getLsbD k = true ∧ v.enableAtt.getLsbD k = true := by
    rw [ne_zero_iff_getLsbD]
    simp only [BitVec.getLsbD_and, Bool.and_eq_true]
  unfold Live.attentionLine
  rw [Bool.or_eq_true, decide_eq_true_iff, hand, or_comm]

/-! ### The lanes of a 16-bit field -/

/-- Byte `j` of a 16-bit field after a write beat that holds it from lane `lane`. -/
def byteWritten (old : BitVec 16) (b : Beat) (lane j : Nat) : Byte :=
  if Beat.lane b (lane + j) then byteOf b.data (lane + j) else byteOf (old.setWidth 32) j

theorem byteWritten_toNat (old : BitVec 16) (b : Beat) (lane j : Nat) : (byteWritten old b lane j).toNat =
    if Beat.lane b (lane + j) then (byteOf b.data (lane + j)).toNat else old.toNat / 256 ^ j % 256 := by
  have hold := old.isLt
  unfold byteWritten
  split
  · rfl
  · rw [byteOf, BitVec.toNat_setWidth, Nat.mod_eq_of_lt (by omega), BitVec.toNat_ofNat]

theorem byteWritten_getLsbD (old : BitVec 16) (b : Beat) (lane j : Nat) {i : Nat} (hj : j < 2) (hi : i < 8) :
    (byteWritten old b lane j).getLsbD i =
      if Beat.lane b (lane + j) then b.data.getLsbD (8 * (lane + j) + i) else old.getLsbD (8 * j + i) := by
  unfold byteWritten
  split
  · exact byteOf_getLsbD _ _ hi
  · rw [byteOf_getLsbD _ _ hi, BitVec.getLsbD_setWidth, decide_eq_true (show 8 * j + i < 32 by omega), Bool.true_and]

/-- A bit of a number of two bytes. -/
theorem twoBytes_getLsbD (x y : Byte) {k : Nat} (hk : k < 16) : (BitVec.ofNat 16 (x.toNat + 256 * y.toNat)).getLsbD k =
    if k < 8 then x.getLsbD k else y.getLsbD (k - 8) := by
  rw [BitVec.getLsbD_ofNat, decide_eq_true hk, Bool.true_and, Nat.add_comm,
    show (256 : Nat) = 2 ^ 8 from rfl, Nat.testBit_two_pow_mul_add _ x.isLt]
  split <;> rfl

theorem write16_eq (old : BitVec 16) (b : Beat) (lane : Nat) : write16 old b lane =
    BitVec.ofNat 16 ((byteWritten old b lane 0).toNat + 256 * (byteWritten old b lane 1).toNat) := by
  rw [byteWritten_toNat, byteWritten_toNat]
  rfl

/-- A bit of the field is the beat's where the beat's lane is enabled, and stays where it is not. -/
theorem write16_getLsbD (old : BitVec 16) (b : Beat) (lane : Nat) {k : Nat} (hk : k < 16) :
    (write16 old b lane).getLsbD k =
      if Beat.lane b (lane + k / 8) then b.data.getLsbD (8 * lane + k) else old.getLsbD k := by
  rw [write16_eq, twoBytes_getLsbD _ _ hk]
  by_cases h : k < 8
  · rw [if_pos h, byteWritten_getLsbD _ _ _ _ (by decide) h, show k / 8 = 0 by omega]
    simp
  · rw [if_neg h, byteWritten_getLsbD _ _ _ _ (by decide) (by omega), show k / 8 = 1 by omega,
      show 8 * (lane + 1) + (k - 8) = 8 * lane + k by omega, show 8 * 1 + (k - 8) = k by omega]

/-- R175: a write clears the bits written 1, and never HALTED. -/
theorem clearPending_getLsbD (v : Live) (b : Beat) {k : Nat} (hk : k < 16) : (clearPending v b).pendingAtt.getLsbD k =
    (v.pendingAtt.getLsbD k && (decide (k = attnBit .halted) || !(Beat.lane b (k / 8) && b.data.getLsbD k))) := by
  have hwritten : (write16 0 b 0).getLsbD k = (Beat.lane b (k / 8) && b.data.getLsbD k) := by
    rw [write16_getLsbD _ _ _ hk]
    simp
  unfold clearPending
  simp only [BitVec.getLsbD_and, BitVec.getLsbD_not, hwritten, attnMask_getLsbD, hk, decide_true, Bool.true_and,
    Bool.not_and, Bool.not_not, Bool.or_comm]

/-! ### A beat on Attention Pending (R173) -/

/-- The first beat of a burst in the Live Window leaves the two attention registers, and its offset is that of its word. -/
theorem State.liveBeat_first (s : State) {b : Beat} (hindex : b.index = 0) (haddr : 0xFFF000 ≤ Beat.word b) :
    ((s.beginBeat b).liveBeat b).live.pendingAtt = s.live.pendingAtt ∧
      ((s.beginBeat b).liveBeat b).liveOffset b = Beat.word b - 0xFFF000 := by
  obtain ⟨n, hlive⟩ := (s.beginBeat b).dropHeld_live
  rw [State.beginBeat_live, if_pos hindex] at hlive
  unfold State.liveBeat State.takeSnapshot State.liveOffset
  simp only [State.noAccess_live, hlive, true_and]
  omega

theorem exec_attentionPendingWrite_next {s : State} {b : Beat} (hwrite : b.write = true) (hindex : b.index = 0)
    (haddr : Beat.word b = 0xFFF020) (hopen : s.open_) (hlane : (Beat.lane b 0 || Beat.lane b 1) = true) :
    exec (.attentionPendingWrite b) s = .next { (s.beginBeat b).liveBeat b with
      live := writeEnable (clearPending ((s.beginBeat b).liveBeat b).live b) b } := by
  have hin : s.inLive b = true := State.inLive_of_addr (by omega)
  obtain ⟨-, hoffset⟩ := s.liveBeat_first hindex (by omega)
  rw [haddr] at hoffset
  show execAttentionPendingWrite b s = _
  unfold execAttentionPendingWrite
  rw [hwrite, hin, hlane, Bool.and_self, Bool.and_self, State.when_true, State.hostBeat_free _ _ hopen]
  exact congrArg goOn (if_pos hoffset)

theorem exec_attentionPendingWrite_clears {s : State} {b : Beat} (hwrite : b.write = true) (hindex : b.index = 0)
    (haddr : Beat.word b = 0xFFF020) (hopen : s.open_) (hlane : (Beat.lane b 0 || Beat.lane b 1) = true) :
    ∃ t, exec (.attentionPendingWrite b) s = .next t ∧ ∀ k, k < 16 → t.live.pendingAtt.getLsbD k =
      (s.live.pendingAtt.getLsbD k && (decide (k = attnBit .halted) || !(Beat.lane b (k / 8) && b.data.getLsbD k))) := by
  refine ⟨_, exec_attentionPendingWrite_next hwrite hindex haddr hopen hlane, fun k hk => ?_⟩
  obtain ⟨hpending, -⟩ := s.liveBeat_first hindex (by omega)
  rw [← hpending]
  exact clearPending_getLsbD _ b hk

/-! ### The entry to HALTED and the resets -/

/-- R170: an image with a fault, read in LOADING, is refused. -/
theorem exec_configurationRead_halts {s : State} {st : List Byte} {code : Byte} (hmode : s.mode = .loading)
    (hfault : imageFault st = some code) : exec (.configurationRead st) s = .next (s.halt st code) := by
  show goOn (s.when_ (decide (s.mode = .loading)) (fun s => s.loadImage st)) = _
  rw [decide_eq_true hmode, State.when_true, State.loadImage, hfault]
  rfl

/-- R168: the part after RESTART, its beat taken first, stands in the Live Window's reset state. -/
theorem exec_restart_live {s : State} (a : CmdArgs) (hopen : s.open_) :
    ∃ t, exec (.restart a) s = .next t ∧ t.live = Live.init := by
  obtain ⟨_, _, _, _, _, htaken, -⟩ := State.takeCommand_eq s 11 a cmdRestart hopen
  exact ⟨_, congrArg goOn htaken, rfl⟩

/-- Settles O19: the registers bit by bit, the beat on 020h, and what a refused image and the three resets leave in them. -/
theorem attentionRule : Obligations.AttentionRule := by
  refine ⟨rfl, fun v a k _ => v.attend_getLsbD a k, fun s b hwrite hindex haddr hopen hlane => ?_, Live.attentionLine_iff,
    fun s st code hmode hfault => ?_, fun s => ?_, fun s => ?_, fun s a hopen => ?_⟩
  · exact exec_attentionPendingWrite_clears hwrite hindex haddr hopen hlane
  · exact ⟨_, exec_configurationRead_halts hmode hfault, rfl, s.halt_attends st code⟩
  · exact ⟨s.resetWith 1, rfl, rfl, rfl⟩
  · exact ⟨s.resetWith 2, rfl, rfl, rfl⟩
  · obtain ⟨t, hnext, hlive⟩ := exec_restart_live a hopen
    exact ⟨t, hnext, by rw [hlive]; rfl, by rw [hlive]; rfl⟩

end Sys2Proof.Machine
end
